-- ==== Sys2Proof/Word.lean ====
section
/-! DEFINITION. The word types of the RateClock block (RCB): the widths of spec/00_scope.md R8 (P12, P13), R12 and of
spec/30_encoding.md R90, R96, and the two formats in which an encoded instruction is presented. -/

namespace Sys2Proof

/-- The native machine word, `W` = 32 bits (R8 P12, decision D1). -/
abbrev Word := BitVec 32

/-- The widened (double width) word of the arithmetic pipeline, `WW` = 64 bits (R8 P13, decision D1). -/
abbrev Wide := BitVec 64

/-- A command token of format CMD: the 8 bit ASCII code of one character (R90). -/
abbrev Token := BitVec 8

/-- A sequencer command of format SEQ: the 3 bit word `{stop, dir[1:0]}` (R96). -/
abbrev SeqWord := BitVec 3

/-- An encoded instruction. The two formats share no address space: a token stands in the command FIFO, a sequencer
command at the input of the StepSequencer, so the place it stands in fixes its format (R3, R90, R96). -/
inductive Code where
  /-- A token of format CMD. -/
  | cmd (t : Token)
  /-- A word of format SEQ. -/
  | seq (w : SeqWord)
  deriving DecidableEq, Repr

end Sys2Proof
end

