-- ==== Sys2Proof/Config.lean ====
section
/-! DEFINITION. The build-time parameters of the RCB (spec/00_scope.md R8, R9, R10; spec/10_state.md R32): one record of plain
data, the check of its constraints, and the named configuration that `State.reset` is built with. Every statement about the
machine quantifies over the record, which stands in `State.cfg` and which no step writes. P12 `W` and P13 `WW` are the widths
of `Word` and `Wide`; P14 `DEBUG` is fixed false, so the debug alphabet has no tokens (R94, decision D14). -/

namespace Sys2Proof

/-- P2 `TOPOLOGY`: which of the two coil tables the build uses (R8, R61). -/
inductive Topology where
  | bipolar
  | unipolar
  deriving DecidableEq, Repr

/-- A sign, +1 or −1: the values of the state element `ddir` and of P9 `DEFDIR_RESET` (R16, R30). -/
inductive Sign where
  /-- +1 -/
  | plus
  /-- −1 -/
  | minus
  deriving DecidableEq, Repr

/-- One coil table: 8 rows of 4 bits, `row<i>` at phase `i` (R61). -/
structure CoilTable where
  row0 : BitVec 4
  row1 : BitVec 4
  row2 : BitVec 4
  row3 : BitVec 4
  row4 : BitVec 4
  row5 : BitVec 4
  row6 : BitVec 4
  row7 : BitVec 4
  deriving DecidableEq, Repr

/-- The parameters P1 to P11 of R8. The integer parameters are `Nat`: a negative value cannot be written down, and the other
constraints of R9 are `Config.Legal`. -/
structure Config where
  /-- P1 `HOMING`: the build has the homing switch and its three modes. -/
  homing : Bool
  /-- P2 `TOPOLOGY`. -/
  topology : Topology
  /-- P3 `T` = `TICKS_PER_SIDEREAL_DAY`. -/
  ticksPerSiderealDay : Nat
  /-- P4 `S` = `STEPS_FOR_FULL_ROTATION`. -/
  stepsForFullRotation : Nat
  /-- P5 `F` = `FIXED_TICKS_PER_STEP`. -/
  fixedTicksPerStep : Nat
  /-- P6 `TRAVEL_LIMIT`. -/
  travelLimit : Nat
  /-- P7 `BOUNDS_CHECK`. -/
  boundsCheck : Bool
  /-- P8 `QUIT_OFFSET`. -/
  quitOffset : Nat
  /-- P9 `DEFDIR_RESET`. -/
  defdirReset : Sign
  /-- P10 `COIL_ROM`, rows 0 to 7: the bipolar table. -/
  bipolarTable : CoilTable
  /-- P10 `COIL_ROM`, rows 8 to 15: the unipolar table. -/
  unipolarTable : CoilTable
  /-- P11 `CMD_DEPTH`. -/
  cmdDepth : Nat
  deriving DecidableEq, Repr

/-- The constraints of R9. A configuration that breaks one is refused by `step` (`Refusal.badConfig`, U1). That the rows of
`COIL_ROM` are 4 bit values is their type. 2^32 = 4294967296, 2^31 = 2147483648. -/
abbrev Config.Legal (c : Config) : Prop :=
  1 ≤ c.stepsForFullRotation ∧ c.stepsForFullRotation ≤ c.ticksPerSiderealDay ∧ c.ticksPerSiderealDay < 4294967296 ∧
  1 ≤ c.fixedTicksPerStep ∧ c.fixedTicksPerStep < 4294967296 ∧
  c.travelLimit ≤ 2147483646 ∧
  1 ≤ c.quitOffset ∧ c.quitOffset ≤ 2147483647 ∧
  4 ≤ c.cmdDepth

/-- The default bipolar table of R62 (general knowledge, 93_implementation_defined.md G1; log entry 5). -/
def Config.defaultBipolar : CoilTable :=
  { row0 := 0b1000, row1 := 0b1010, row2 := 0b0010, row3 := 0b0110,
    row4 := 0b0100, row5 := 0b0101, row6 := 0b0001, row7 := 0b1001 }

/-- The default unipolar table of R62 (general knowledge, 93_implementation_defined.md G1; log entry 5). -/
def Config.defaultUnipolar : CoilTable :=
  { row0 := 0b1000, row1 := 0b1100, row2 := 0b0100, row3 := 0b0110,
    row4 := 0b0010, row5 := 0b0011, row6 := 0b0001, row7 := 0b1001 }

/-- The configuration `State.reset` is built with: `T` and `S` of profile A (R10), the defaults of R8 where it gives one,
and R8's test values for the parameters it leaves OPEN without a default. DESIGN CHOICE, unsafe if a claim leans on a value
(log entry 4); no statement of the package does. -/
def Config.profileA : Config :=
  { homing := true
    topology := .unipolar
    ticksPerSiderealDay := 2823421952
    stepsForFullRotation := 566784
    fixedTicksPerStep := 100
    travelLimit := 5
    boundsCheck := true
    quitOffset := 3
    defdirReset := .plus
    bipolarTable := Config.defaultBipolar
    unipolarTable := Config.defaultUnipolar
    cmdDepth := 4 }

end Sys2Proof
end

