-- ==== Sys2Proof/Syntax.lean ====
section
/-! DEFINITION. The instructions of the RCB: one constructor per row of spec/opcode_table.json, the seven command tokens of
format CMD (spec/30_encoding.md R91) and the five words of format SEQ (R97). -/

namespace Sys2Proof

/-- An instruction: a command token the TrackerStateMachine takes from the command FIFO, or a sequencer command it gives
the StepSequencer (R3). No instruction has a register or immediate operand (R90, R105). -/
inductive Instr where
  /-- `CMD_S`, `s` 0x73: start tracking (R210). -/
  | cmdS
  /-- `CMD_P`, `p` 0x70: start tracking, the second character (R211). -/
  | cmdP
  /-- `CMD_T`, `t` 0x74: stop (R212). -/
  | cmdT
  /-- `CMD_F`, `f` 0x66: fast-forward (R213). -/
  | cmdF
  /-- `CMD_R`, `r` 0x72: rewind, in the homing-capable build (R214). -/
  | cmdR
  /-- `CMD_D`, `d` 0x64: toggle direction (R215). -/
  | cmdD
  /-- `CMD_UNREC`: any other token, carried as it was popped (R216). -/
  | cmdUnrec (c : Token)
  /-- `STEP_FWD`, `0b001`: `step(+1)` (R121). -/
  | stepFwd
  /-- `STEP_REV`, `0b011`: `step(-1)` (R122). -/
  | stepRev
  /-- `STEP_NULL`, `0b000`: `step(0)` (R123). -/
  | stepNull
  /-- `STOP`, `0b1xx`: `stop()`, with its two ignored `dir` bits (R124). -/
  | stop (x : BitVec 2)
  /-- `SEQ_RESERVED`, `0b010`: the reserved sequencer word, refused (R97, U6). -/
  | seqReserved
  deriving DecidableEq, Repr

end Sys2Proof
end

