-- ==== Sys2Proof/WellFormed.lean ====
section
/-! DEFINITION. Which instructions a build has (spec/30_encoding.md R91, R92, R95, R97). Only P1 `HOMING` decides. -/

namespace Sys2Proof

/-- The token is in the build's alphabet (R91): `s p t f d` always, `r` in the homing-capable build only (R95). -/
def inAlphabet (homing : Bool) (c : Token) : Bool :=
  c == 0x73#8 || c == 0x70#8 || c == 0x74#8 || c == 0x66#8 || c == 0x64#8 || (homing && c == 0x72#8)

/-- The instruction exists in a build with P1 `HOMING` = `homing`: `CMD_R` only with homing (R95); `CMD_UNREC` only on a
token outside the alphabet, since every token decodes to exactly one row (R92); the reserved word is no instruction (R97). -/
def Instr.wf (homing : Bool) : Instr → Bool
  | .cmdS => true
  | .cmdP => true
  | .cmdT => true
  | .cmdF => true
  | .cmdR => homing
  | .cmdD => true
  | .cmdUnrec c => !inAlphabet homing c
  | .stepFwd => true
  | .stepRev => true
  | .stepNull => true
  | .stop _ => true
  | .seqReserved => false

end Sys2Proof
end

