-- ==== Sys2Proof/Decode.lean ====
section
/-! DEFINITION. Decoding, total on every token and every sequencer word (spec/30_encoding.md R91, R92, R96, R97), and the
encoder written from the same tables. -/

namespace Sys2Proof

/-- Decoding of format CMD: all 8 bits compared, case-sensitive (R91); `0x72` is `CMD_R` only in the homing-capable build
(R95); every other token is `CMD_UNREC`, so decoding is total (R92). -/
def decodeCmd (homing : Bool) (c : Token) : Instr :=
  if c = 0x73#8 then .cmdS
  else if c = 0x70#8 then .cmdP
  else if c = 0x74#8 then .cmdT
  else if c = 0x66#8 then .cmdF
  else if c = 0x64#8 then .cmdD
  else if c = 0x72#8 ∧ homing = true then .cmdR
  else .cmdUnrec c

/-- The `stop` field of a sequencer word, bit 2 (R96). -/
def seqStopBit (w : SeqWord) : Bool := w.getLsbD 2

/-- The `dir` field of a sequencer word, bits 1:0 (R96). -/
def seqDirBits (w : SeqWord) : BitVec 2 := w.extractLsb' 0 2

/-- Decoding of format SEQ (R97): with `stop` = 1 the `dir` bits are ignored; `{0, 0b10}` is reserved and decodes to the
constructor that the machine refuses by name (U6). -/
def decodeSeq (w : SeqWord) : Instr :=
  if seqStopBit w then .stop (seqDirBits w)
  else if seqDirBits w = 0b01#2 then .stepFwd
  else if seqDirBits w = 0b11#2 then .stepRev
  else if seqDirBits w = 0b00#2 then .stepNull
  else .seqReserved

/-- The decoder: the format is the place the code stands in. -/
def decode (homing : Bool) : Code → Instr
  | .cmd c => decodeCmd homing c
  | .seq w => decodeSeq w

/-- The encoder, from the tables of R91 and R97. -/
def encode : Instr → Code
  | .cmdS => .cmd 0x73#8
  | .cmdP => .cmd 0x70#8
  | .cmdT => .cmd 0x74#8
  | .cmdF => .cmd 0x66#8
  | .cmdR => .cmd 0x72#8
  | .cmdD => .cmd 0x64#8
  | .cmdUnrec c => .cmd c
  | .stepFwd => .seq 0b001#3
  | .stepRev => .seq 0b011#3
  | .stepNull => .seq 0b000#3
  | .stop x => .seq (1#1 ++ x)
  | .seqReserved => .seq 0b010#3

/-- The code that a word of the opcode table stands for. A SEQ row has 3 bits and is asked about as one byte; a byte below 8
could be a SEQ word or a control character of format CMD. It is read as the SEQ word here (DESIGN CHOICE, log entry 9).
The machine itself never has to choose: a token in the FIFO is always read as format CMD. -/
def tableCode (nbits w : Nat) : Option Code :=
  if nbits = 3 ∧ w < 8 then some (.seq (BitVec.ofNat 3 w))
  else if nbits = 8 ∧ w < 8 then some (.seq (BitVec.ofNat 3 w))
  else if nbits = 8 ∧ w < 256 then some (.cmd (BitVec.ofNat 8 w))
  else none

/-- The instruction the decoder reads from a word of the opcode table, in the build `Config.profileA` (which has homing,
the condition of the row `CMD_R`). -/
def decodeTableWord (nbits w : Nat) : Option Instr :=
  (tableCode nbits w).map (decode Config.profileA.homing)

end Sys2Proof
end

