-- ==== Sys2Proof/Machine/State.lean ====
section
/-! DEFINITION. The state of the RCB and its neighbours as plain data (spec/10_state.md R20 to R31, R36 to R44;
spec/20_memory.md R67; spec/60_exceptions.md R250), the reasons a step can stop, and the state after reset (R43, R270). -/

namespace Sys2Proof.Machine

/-- The operating mode (R28, R170). The codes 6 and 7 have no value here: they are never written (R98, U7). -/
inductive Mode where
  | stopped
  | tracking
  | fastForward
  | rewind
  | homingFound
  | homingQuitting
  deriving DecidableEq, Repr

/-- The TrackerState direction (R16, R29). The code `0b10` has no value here: it is never written (R99, U7). -/
inductive Direction where
  /-- −1 -/
  | backward
  /-- 0 -/
  | none
  /-- +1 -/
  | forward
  deriving DecidableEq, Repr

/-- Which of the two RateClock formulas a mode uses (R143). -/
inductive RateClass where
  | sidereal
  | fast
  deriving DecidableEq, Repr

/-- The LED cadence requests of the port `fb_led` (R100). -/
inductive Led where
  | solid
  | slow
  | fast
  | third
  deriving DecidableEq, Repr

/-- The buzzer requests of the port `fb_tone` (R101). -/
inductive Tone where
  | success
  | alert
  | scaleUp
  | scaleDown
  deriving DecidableEq, Repr

/-- An entry of an iteration's ordered output list (R40, R102, R104, R252). -/
inductive Output where
  /-- `TICK_RST`: the pulse on `tick_rst`. -/
  | tickRst
  /-- A request on `fb_led`. -/
  | led (r : Led)
  /-- A request on `fb_tone`. -/
  | tone (r : Tone)
  /-- `DIAG(c)`: the token of an unrecognised command on `diag`. -/
  | diag (c : Token)
  deriving DecidableEq, Repr

/-- The event list of R230, E1 to E6 in order. `homingStall` and `arithOverflow` are in the list and no rule raises them
(R233, R235). -/
inductive Event where
  /-- E1 -/
  | invalidToken (c : Token)
  /-- E2 -/
  | boundsViolation
  /-- E3 -/
  | homingDone
  /-- E4, never raised -/
  | homingStall
  /-- E5 -/
  | cmdDropped
  /-- E6, never raised -/
  | arithOverflow
  deriving DecidableEq, Repr

/-- One step of one agent (R256), as the state lists it: what the world outside does, and when the RCB is woken. -/
inductive AgentStep where
  /-- The wake input (R41): the RCB has the turn. -/
  | wake
  /-- A producer's `FifoPushBlocking(c)` (R68). -/
  | pushBlocking (c : Token)
  /-- A producer's `FifoPushNonBlocking(c)` (R69). -/
  | pushNonBlocking (c : Token)
  /-- The tick source's `TickAdvance(k)` (R250). -/
  | tickAdvance (k : Nat)
  /-- The homing switch's "set `sw`" (R256). -/
  | setSwitch (level : Bool)
  /-- The reset input `rst`, the boot of the system (R41, R270). -/
  | boot
  deriving DecidableEq, Repr

/-- The reasons the machine faults: the three conditions outside the specified envelope (R237). Each is the spec's own
`fault`, never a wrapped value. Safe: the machine stops where an unbounded register would go on. -/
inductive Fault where
  /-- Raised by a sequencer step that would take `pos` outside −2^31 to 2^31 − 1 (R22, R125, U2). Safe. -/
  | posOverflow
  /-- Raised by step 6 of an iteration when `step_count` would pass 2^32 − 1 (R23, R187, U3). Safe. -/
  | stepCountOverflow
  /-- Raised by a `TickAdvance` that would take `tick_now` above 2^32 − 1 (R253, U4). Safe. -/
  | tickOverflow
  deriving DecidableEq, Repr

/-- The reasons the machine refuses. -/
inductive Refusal where
  /-- Raised by `exec` for an instruction that has no meaning yet. No arm raises it now. Safe. -/
  | notModelled (mnemonic : String)
  /-- Raised by `exec` on the reserved sequencer word `0b010`, which the spec says a model refuses (R97, U6). Safe. -/
  | reservedSeq
  /-- Raised by `step` in a configuration that breaks a constraint of R9, which the spec says is refused (U1). Safe. -/
  | badConfig
  deriving DecidableEq, Repr

/-- The state: the configuration of the build, the nine state elements of R20, the command FIFO, what the RCB's neighbours
hold (R44), and the model's own records. -/
structure State where
  /-- The build-time parameters (R32); no step writes them. -/
  cfg : Config
  /-- MotorPhase, u3 (R21). -/
  phase : BitVec 3
  /-- AbsolutePosition, s32, read as its two's-complement value (R22). -/
  pos : Word
  /-- The four coil pins: bit `i` drives pin `i` (R25, R39). -/
  coil : BitVec 4
  /-- DefaultDirection (R30). -/
  ddir : Sign
  /-- The step index of the current mode, u32 (R23). -/
  stepCount : Word
  /-- The tick origin of the current mode, u32 (R24). -/
  tickOrigin : Word
  /-- The operating mode (R28). -/
  mode : Mode
  /-- The TrackerState direction (R29). -/
  direction : Direction
  /-- The switch level the previous iteration sampled, `true` = pressed (R31). -/
  swPrev : Bool
  /-- The command FIFO, head first (R67). -/
  fifo : List Token
  /-- The counter of the tick source, u32 (R37, R250). -/
  tickNow : Word
  /-- The level on the homing switch input, `true` = pressed (R36). -/
  sw : Bool
  /-- The latest-wins mailbox behind `fb_led`: the last request issued (R44, R84). -/
  ledBox : Option Led
  /-- The latest-wins mailbox behind `fb_tone`: the last request issued (R44, R84). -/
  toneBox : Option Tone
  /-- The model's record: the ordered output list of the latest agent step (R102). -/
  outputs : List Output
  /-- The model's record: the events raised in the latest agent step (R15). -/
  events : List Event
  /-- The model's own: a sequencer word standing at the input of the StepSequencer taken alone. In every run it is empty:
  the words the TSM issues are executed inside the iteration (R180, R190; log entry 8). -/
  seqPort : Option SeqWord
  /-- The model's own: the steps of the agents still to come, first one first (R45, R256; log entry 6). -/
  agenda : List AgentStep
  deriving DecidableEq, Repr

/-- The three outcomes of a step of this machine. -/
abbrev Result := Host.Outcome State Fault Refusal

/-- The state right after reset of a build with the configuration `c` (R43, R270). Of the fields that are not RCB state, the
FIFO is empty (D18); `tickNow`, `sw` and the mailboxes have no value in the spec and the model names one (log entries 2 and
3, DESIGN CHOICE, unsafe). -/
def State.resetWith (c : Config) : State :=
  { cfg := c
    phase := 0
    pos := 0
    coil := 0b0000
    ddir := c.defdirReset
    stepCount := 0
    tickOrigin := 0
    mode := .stopped
    direction := .none
    swPrev := false
    fifo := []
    tickNow := 0
    sw := false
    ledBox := none
    toneBox := none
    outputs := []
    events := []
    seqPort := none
    agenda := [] }

/-- The machine right after reset, in the configuration `Config.profileA` (log entry 4). -/
def State.reset : State := State.resetWith Config.profileA

end Sys2Proof.Machine
end

