-- ==== Sys2Proof/Machine/Operands.lean ====
section
/-! DEFINITION. Operand assembly and the codes of the symbolic values: the `dir` operand of format SEQ (spec/30_encoding.md
R96, R105), the codes of `mode`, `direction`, `ddir` and the requests (R98 to R101), the event codes (spec/60_exceptions.md
R230), and the tables that map a mode to its direction, its rate class and its LED request. -/

namespace Sys2Proof.Machine

/-- The number a sign stands for: `1 − 2·bit` (R99). -/
def signValue : Sign → Int
  | .plus => 1
  | .minus => -1

/-- The 1 bit code of `ddir` (R99). -/
def signCode : Sign → BitVec 1
  | .plus => 0
  | .minus => 1

/-- `ddir <- -ddir`: the 1 bit flip of R161 (l). -/
def signFlip : Sign → Sign
  | .plus => .minus
  | .minus => .plus

/-- The number a direction stands for (R16). -/
def directionValue : Direction → Int
  | .backward => -1
  | .none => 0
  | .forward => 1

/-- The 2 bit two's-complement code of `direction` (R99). -/
def directionCode : Direction → BitVec 2
  | .backward => 0b11
  | .none => 0b00
  | .forward => 0b01

/-- The direction a 2 bit code stands for; `0b10` is refused (R99, U7). -/
def directionOfCode (b : BitVec 2) : Option Direction :=
  if b = 0b01#2 then some .forward
  else if b = 0b00#2 then some .none
  else if b = 0b11#2 then some .backward
  else none

/-- `d = sext(dir)`: the SSQ sign-extends the 2 bit operand (R105). -/
def sextDir (dir : BitVec 2) : Int := dir.toInt

/-- The sequencer word `{0, direction}` that step 6 issues: the TSM copies the 2 bit register unchanged (R105, R187). -/
def seqStepWord (d : Direction) : SeqWord := 0#1 ++ directionCode d

/-- The 3 bit code of `mode` (R98). -/
def modeCode : Mode → BitVec 3
  | .stopped => 0
  | .tracking => 1
  | .fastForward => 2
  | .rewind => 3
  | .homingFound => 4
  | .homingQuitting => 5

/-- The mode a 3 bit code stands for; the codes 6 and 7 are refused (R98, U7). -/
def modeOfCode (b : BitVec 3) : Option Mode :=
  if b = 0#3 then some .stopped
  else if b = 1#3 then some .tracking
  else if b = 2#3 then some .fastForward
  else if b = 3#3 then some .rewind
  else if b = 4#3 then some .homingFound
  else if b = 5#3 then some .homingQuitting
  else none

/-- `canon(mode)`, the canonical direction (R172). -/
def canon : Mode → Direction
  | .stopped => .none
  | .tracking => .forward
  | .fastForward => .forward
  | .rewind => .backward
  | .homingFound => .forward
  | .homingQuitting => .forward

/-- The rate class of a mode; `Stopped` has none (R98, R143, decision D8). -/
def rateClass : Mode → Option RateClass
  | .stopped => none
  | .tracking => some .sidereal
  | .fastForward => some .fast
  | .rewind => some .fast
  | .homingFound => some .fast
  | .homingQuitting => some .fast

/-- The mode exists in every build, or only in the homing-capable one (R98, R170, R195). -/
def isHomingMode : Mode → Bool
  | .stopped => false
  | .tracking => false
  | .fastForward => false
  | .rewind => true
  | .homingFound => true
  | .homingQuitting => true

/-- `led_of(mode)`: the cadence requested on entry to a mode (R100, R175). -/
def ledOf : Mode → Led
  | .stopped => .solid
  | .tracking => .slow
  | .fastForward => .fast
  | .rewind => .third
  | .homingFound => .third
  | .homingQuitting => .third

/-- The 2 bit code of an `fb_led` request (R100). -/
def ledCode : Led → BitVec 2
  | .solid => 0
  | .slow => 1
  | .fast => 2
  | .third => 3

/-- The 2 bit code of an `fb_tone` request (R101). -/
def toneCode : Tone → BitVec 2
  | .success => 0
  | .alert => 1
  | .scaleUp => 2
  | .scaleDown => 3

/-- The scale that indicates the new sign of `ddir`: ascending for +1 (R101, R215, decision D13). -/
def scaleOf : Sign → Tone
  | .plus => .scaleUp
  | .minus => .scaleDown

/-- The number in the event's code, E1 to E6 (R230). -/
def eventCode : Event → Nat
  | .invalidToken _ => 1
  | .boundsViolation => 2
  | .homingDone => 3
  | .homingStall => 4
  | .cmdDropped => 5
  | .arithOverflow => 6

end Sys2Proof.Machine
end

