-- ==== Sys2Proof/Machine/Ops.lean ====
section
/-! DEFINITION. The named operations the rules are written with (spec/00_scope.md R13 to R15): the coil ROM, the command FIFO,
the tick source, the output list and the events, the two operations of the StepSequencer, `Transition`, and the forced
transition. -/

namespace Sys2Proof.Machine

/-- Runs `f` on the state a step answers; a fault or a refusal ends the step. -/
def andThen (o : Result) (f : State → Result) : Result :=
  match o with
  | .next s => f s
  | .fault r => .fault r
  | .refused r => .refused r

/-! ### Outputs and events -/

/-- `emit`: appends a request to the ordered output list, and a request on a feedback port overwrites that port's
latest-wins mailbox (R15, R84, R102). -/
def emit (o : Output) (s : State) : State :=
  { s with
    outputs := s.outputs ++ [o]
    ledBox := match o with
      | .led r => some r
      | _ => s.ledBox
    toneBox := match o with
      | .tone r => some r
      | _ => s.toneBox }

/-- `raise`: records an event and stops nothing (R15). -/
def raiseEvent (e : Event) (s : State) : State :=
  { s with events := s.events ++ [e] }

/-- The model's records start empty at each step of an agent: an output is an event and no copy is kept (R40, R45). -/
def clearRecords (s : State) : State :=
  { s with outputs := [], events := [] }

/-! ### The coil ROM -/

/-- The row of a coil table at a phase (R61). -/
def tableRow (t : CoilTable) (phase : BitVec 3) : BitVec 4 :=
  match phase.toNat with
  | 0 => t.row0
  | 1 => t.row1
  | 2 => t.row2
  | 3 => t.row3
  | 4 => t.row4
  | 5 => t.row5
  | 6 => t.row6
  | _ => t.row7

/-- The topology bit `t` of a ROM address: 0 bipolar, 1 unipolar (R61). -/
def topologyBit : Topology → BitVec 1
  | .bipolar => 0
  | .unipolar => 1

/-- The ROM address `{t, phase}` (R61, R77). -/
def romAddress (t : Topology) (phase : BitVec 3) : BitVec 4 := topologyBit t ++ phase

/-- `MemRead(COILROM, a, 4)`: rows 0 to 7 are the bipolar table, rows 8 to 15 the unipolar one; no side effect (R61, R77). -/
def coilRomRead (c : Config) (a : BitVec 4) : BitVec 4 :=
  if a.getLsbD 3 then tableRow c.unipolarTable (a.extractLsb' 0 3)
  else tableRow c.bipolarTable (a.extractLsb' 0 3)

/-! ### The command FIFO -/

/-- The FIFO holds `CMD_DEPTH` tokens (R66, R67). -/
def fifoFull (s : State) : Bool := decide (s.cfg.cmdDepth ≤ s.fifo.length)

/-- The effect of a push that has room: `q <- q ++ [c]` (R68, R69). -/
def fifoAppend (c : Token) (s : State) : State :=
  { s with fifo := s.fifo ++ [c] }

/-- `FifoPushNonBlocking(c)`: into a full FIFO the command is dropped, `CmdDropped` (R69, R234). -/
def fifoPushNonBlocking (c : Token) (s : State) : State :=
  if fifoFull s then raiseEvent .cmdDropped s else fifoAppend c s

/-- `FifoPop()`: the head and the rest, or `none` and no change (R70). -/
def fifoPop (s : State) : Option Token × State :=
  match s.fifo with
  | [] => (none, s)
  | c :: rest => (some c, { s with fifo := rest })

/-! ### The tick source and the switch -/

/-- `TickRead()` (R251). -/
def tickRead (s : State) : Word := s.tickNow

/-- `TickReset()`: `tick_now <- 0`, recorded as `TICK_RST` (R252). -/
def tickReset (s : State) : State :=
  emit .tickRst { s with tickNow := 0 }

/-- `TickAdvance(k)`: adds `k`; past 2^32 − 1 it is `fault TickOverflow`, neither wrapped nor saturated (R250, R253). -/
def tickAdvance (k : Nat) (s : State) : Result :=
  if 4294967295 < s.tickNow.toNat + k then .fault .tickOverflow
  else .next { s with tickNow := BitVec.ofNat 32 (s.tickNow.toNat + k) }

/-- `SwRead()` (R36). -/
def swRead (s : State) : Bool := s.sw

/-! ### The StepSequencer -/

/-- `step(d)`, the step law (R125, R126): the phase advances by `d * ddir` modulo 8, the coil takes the row of the NEW phase,
and `pos` moves by `d`, unscaled; leaving the range of `pos` is `fault PosOverflow`. -/
def ssqStep (d : Int) (s : State) : Result :=
  let phase' : BitVec 3 := BitVec.ofInt 3 ((s.phase.toNat : Int) + d * signValue s.ddir)
  let pos' : Int := s.pos.toInt + d
  if 2147483647 < pos' ∨ pos' < -2147483648 then .fault .posOverflow
  else .next { s with
    phase := phase'
    coil := coilRomRead s.cfg (romAddress s.cfg.topology phase')
    pos := BitVec.ofInt 32 pos' }

/-- `stop()`: de-energises the four pins, keeps phase and position (R124). -/
def ssqStop (s : State) : State :=
  { s with coil := 0b0000 }

/-! ### Transition, forced transition -/

/-- `Transition(target)`, the only operation that writes `mode` (R171): re-entry is inert (R173); otherwise the mode, its
canonical direction, the tick origin, the tick source, the step index and the coil are written and the target's LED request
is issued after `TICK_RST` (R102, R175). -/
def transition (target : Mode) (s : State) : State :=
  if target = s.mode then s
  else
    emit (.led (ledOf target))
      (ssqStop { tickReset { s with mode := target, direction := canon target, tickOrigin := 0 } with stepCount := 0 })

/-- TAKING AN EVENT THAT FORCES A STOP, the one entry E2 and E3 share (R245): an ordinary `Transition(Stopped)`, the event
recorded, then the tone. Nothing is saved and control goes nowhere: there is no handler, so there is no return operation
either; a later mode token starts a mode from scratch (R247). -/
def forceStop (e : Event) (t : Tone) (s : State) : State :=
  emit (.tone t) (raiseEvent e (transition .stopped s))

/-- `raise InvalidToken(c); emit diag(c)`, the entry of E1: no state change (R216, R231). -/
def invalidToken (c : Token) (s : State) : State :=
  emit (.diag c) (raiseEvent (.invalidToken c) s)

/-- `−QUIT_OFFSET` as the 32 bit register holds it (R161 (d), R184). -/
def negQuitOffset (c : Config) : Word := BitVec.ofInt 32 (-(c.quitOffset : Int))

/-- The step-timing state register STR = `{step_count, tick_origin}`, 64 bits: a view, nothing reads it whole (R26). -/
def strWord (s : State) : Wide := s.stepCount ++ s.tickOrigin

end Sys2Proof.Machine
end

