-- ==== Sys2Proof/Machine/Commands.lean ====
section
/-! DEFINITION. The meanings of the command tokens, format CMD: what `Dispatch(c)` does in step 1 of the iteration that popped
the token (spec/43_commands.md R210 to R217). Steps 2 to 6 of that iteration are Machine/Iteration.lean's (R218). -/

namespace Sys2Proof.Machine

/-- `s`: start tracking (R210). -/
def execCmdS (s : State) : Result := .next (transition .tracking s)

/-- `p`: start tracking, the second character (R211). -/
def execCmdP (s : State) : Result := .next (transition .tracking s)

/-- `t`: stop (R212). -/
def execCmdT (s : State) : Result := .next (transition .stopped s)

/-- `f`: fast-forward (R213). -/
def execCmdF (s : State) : Result := .next (transition .fastForward s)

/-- `r`: rewind; without homing the token is unrecognised (R95, R214). -/
def execCmdR (s : State) : Result :=
  if s.cfg.homing then .next (transition .rewind s) else .next (invalidToken 0x72#8 s)

/-- `d`: toggle direction and sound the scale of the NEW sign (R215). -/
def execCmdD (s : State) : Result :=
  .next (emit (.tone (scaleOf (signFlip s.ddir))) { s with ddir := signFlip s.ddir })

/-- Any other token: ignored, with a diagnostic (R216). -/
def execCmdUnrec (c : Token) (s : State) : Result := .next (invalidToken c s)

end Sys2Proof.Machine
end

