-- ==== Sys2Proof/Machine/Sequencer.lean ====
section
/-! DEFINITION. The meanings of the sequencer commands, format SEQ (spec/40_stepsequencer.md R121 to R124; spec/30_encoding.md
R97). -/

namespace Sys2Proof.Machine

/-- `STEP_FWD`: `step(+1)`, `dir` = `0b01` (R121). -/
def execStepFwd (s : State) : Result := ssqStep (sextDir 0b01#2) s

/-- `STEP_REV`: `step(-1)`, `dir` = `0b11` (R122). -/
def execStepRev (s : State) : Result := ssqStep (sextDir 0b11#2) s

/-- `STEP_NULL`: `step(0)`, `dir` = `0b00`; the coil takes the row of the current phase (R123). -/
def execStepNull (s : State) : Result := ssqStep (sextDir 0b00#2) s

/-- `STOP`: `stop()`, the `dir` bits ignored (R96, R124). -/
def execStop (_x : BitVec 2) (s : State) : Result := .next (ssqStop s)

/-- The reserved word: not an instruction, refused (R97, U6). -/
def execSeqReserved (_s : State) : Result := .refused .reservedSeq

end Sys2Proof.Machine
end

