-- ==== Sys2Proof/Machine/Dispatch.lean ====
section
/-! DEFINITION. `exec`: one arm per constructor of `Instr`, each one direct call of its meaning. -/

namespace Sys2Proof.Machine

-- A command token's own effect (step 1 of the iteration that pops it) or a sequencer command's (R3).
def exec (i : Instr) (s : State) : Host.Outcome State Fault Refusal :=
  match i with
  -- format CMD
  | .cmdS => Sys2Proof.Machine.execCmdS s
  | .cmdP => Sys2Proof.Machine.execCmdP s
  | .cmdT => Sys2Proof.Machine.execCmdT s
  | .cmdF => Sys2Proof.Machine.execCmdF s
  | .cmdR => Sys2Proof.Machine.execCmdR s
  | .cmdD => Sys2Proof.Machine.execCmdD s
  | .cmdUnrec c => Sys2Proof.Machine.execCmdUnrec c s
  -- format SEQ
  | .stepFwd => Sys2Proof.Machine.execStepFwd s
  | .stepRev => Sys2Proof.Machine.execStepRev s
  | .stepNull => Sys2Proof.Machine.execStepNull s
  | .stop x => Sys2Proof.Machine.execStop x s
  | .seqReserved => Sys2Proof.Machine.execSeqReserved s

end Sys2Proof.Machine
end

