-- ==== Sys2Proof/Machine/RateClock.lean ====
section
/-! DEFINITION. The RateClock (spec/41_rateclock.md): the exact formulas `TICKS_SIDEREAL`, `TICKS_FAST` and `ticks`
(R141, R142, R144), and the four-stage 64 bit pipeline that computes `DUE` (R145, R150 to R154). It writes no state (R140). -/

namespace Sys2Proof.Machine

/-- `TICKS_SIDEREAL(n) = (n * T) div S`, exact (R141). -/
def ticksSidereal (c : Config) (n : Nat) : Nat := n * c.ticksPerSiderealDay / c.stepsForFullRotation

/-- `TICKS_FAST(n) = n * F`, exact (R142). -/
def ticksFast (c : Config) (n : Nat) : Nat := n * c.fixedTicksPerStep

/-- `ticks(mode, n)` for a mode of the given class (R144). -/
def ticks (c : Config) (k : RateClass) (n : Nat) : Nat :=
  match k with
  | .sidereal => ticksSidereal c n
  | .fast => ticksFast c n

/-- `NUM`: `T` or `F`, a u32 (R144, R151). -/
def rateNum (c : Config) : RateClass → Word
  | .sidereal => BitVec.ofNat 32 c.ticksPerSiderealDay
  | .fast => BitVec.ofNat 32 c.fixedTicksPerStep

/-- `DEN`: `S` or 1, a u32 (R144, R151). -/
def rateDen (c : Config) : RateClass → Word
  | .sidereal => BitVec.ofNat 32 c.stepsForFullRotation
  | .fast => 1

/-- Stage P1: `n1 = zext_64(step_count) + 1`, formed in 64 bits (R151). -/
def stageIndex (stepCount : Word) : Wide := stepCount.setWidth 64 + 1

/-- Stage P2: `prod = n1 * zext_64(NUM)`, the widened multiply (R152). -/
def stageMultiply (n1 : Wide) (num : Word) : Wide := n1 * num.setWidth 64

/-- Stage P3: `quot = prod div zext_64(DEN)`, unsigned (R153). -/
def stageDivide (prod : Wide) (den : Word) : Wide := prod / den.setWidth 64

/-- Stage P4: `zext_64(now) >= quot`, unsigned, 64 bits, no narrowing (R154, R157). -/
def stageCompare (now : Word) (quot : Wide) : Bool := decide (quot ≤ now.setWidth 64)

/-- The due time of the next step as stages P1 to P3 compute it (R150). -/
def dueTime (c : Config) (k : RateClass) (stepCount : Word) : Wide :=
  stageDivide (stageMultiply (stageIndex stepCount) (rateNum c k)) (rateDen c k)

/-- `now = TickRead() − tick_origin`, u32 (R24, R145). -/
def elapsed (s : State) : Word := tickRead s - s.tickOrigin

/-- `DUE` (R145). In `Stopped` the pipeline's output is not used (R151): no step is due. -/
def due (s : State) : Bool :=
  match rateClass s.mode with
  | none => false
  | some k => stageCompare (elapsed s) (dueTime s.cfg k s.stepCount)

end Sys2Proof.Machine
end

