-- ==== Sys2Proof/Machine/Flags.lean ====
section
/-! DEFINITION. The predicates of spec/10_state.md R34. The RCB stores no condition codes: each is computed inside an iteration
from the state and the sampled switch level, and no instruction sets one. The fifth, `due`, is in Machine/RateClock.lean. -/

namespace Sys2Proof.Machine

/-- `sw_rise`: the switch "transitions to pressed". -/
def swRise (sample : Bool) (s : State) : Bool := !s.swPrev && sample

/-- `sw_fall`: the switch "transitions to released". -/
def swFall (sample : Bool) (s : State) : Bool := s.swPrev && !sample

/-- `fwd`: "moving forward". -/
def movingForward (s : State) : Bool := decide (s.direction = .forward)

/-- `over`: `pos > TRAVEL_LIMIT`, strict, a signed compare (R161 (k), decision D22). -/
def overLimit (s : State) : Bool := decide ((s.cfg.travelLimit : Int) < s.pos.toInt)

/-- The home test of step 4: `pos >= 0`, a signed compare (R161 (k), R185, decision D20). -/
def homeReached (s : State) : Bool := decide (0 ≤ s.pos.toInt)

end Sys2Proof.Machine
end

