-- ==== Sys2Proof/Machine/Iteration.lean ====
section
/-! DEFINITION. The TrackerStateMachine's iteration, its six steps in their fixed order (spec/42_trackerstatemachine.md R180 to
R188), and the turns of the agents around it (spec/60_exceptions.md R256; spec/20_memory.md R68, R69). -/

namespace Sys2Proof.Machine

/-- Step 1, dispatch: the token is decoded against the state the iteration finds (R82, R182). -/
def dispatchToken (c : Option Token) (s : State) : Result :=
  match c with
  | none => .next s
  | some t => exec (decodeCmd s.cfg.homing t) s

/-- Step 2, switch found (R183). -/
def switchFound (sample : Bool) (s : State) : State :=
  if s.cfg.homing = true ∧ s.mode = .rewind ∧ swRise sample s = true then transition .homingFound s else s

/-- Step 3, switch released: the snapshot of `pos` and the transition (R184). -/
def switchReleased (sample : Bool) (s : State) : State :=
  if s.cfg.homing = true ∧ s.mode = .homingFound ∧ swFall sample s = true then
    transition .homingQuitting { s with pos := negQuitOffset s.cfg }
  else s

/-- Step 4, home reached: E3 (R185, R236). -/
def homingEnd (s : State) : State :=
  if s.cfg.homing = true ∧ s.mode = .homingQuitting ∧ homeReached s = true then forceStop .homingDone .success s else s

/-- Step 5, travel limit: E2 (R186, R232). -/
def travelStop (s : State) : State :=
  if s.cfg.boundsCheck = true ∧ movingForward s = true ∧ overLimit s = true then forceStop .boundsViolation .alert s else s

/-- The write `step_count <- step_count + 1` of step 6; from 2^32 − 1 it is `fault StepCountOverflow` (R23, R180). -/
def countStep (s : State) : Result :=
  if s.stepCount = 0xFFFFFFFF#32 then .fault .stepCountOverflow
  else .next { s with stepCount := s.stepCount + 1 }

/-- Step 6, the due step: one sequencer command `{0, direction}`, decoded and executed as any SEQ word (R187, R190). -/
def dueStep (s : State) : Result :=
  if s.mode ≠ .stopped ∧ due s = true then
    andThen (exec (decodeSeq (seqStepWord s.direction)) s) countStep
  else .next s

/-- End of the iteration: `sw_prev <- sw` (R188). -/
def endIteration (sample : Bool) (s : State) : State :=
  { s with swPrev := sample }

/-- Steps 2 to 6 and the end, on the state step 1 left (R180). -/
def afterDispatch (sample : Bool) (s : State) : Result :=
  andThen (dueStep (travelStop (homingEnd (switchReleased sample (switchFound sample s)))))
    (fun s' => .next (endIteration sample s'))

/-- `Iteration()` (R180): one sample of the switch, one pop, the six steps, atomic. -/
def iteration (s : State) : Result :=
  let s0 := clearRecords s
  andThen (dispatchToken (fifoPop s0).1 (fifoPop s0).2) (afterDispatch (swRead s0))

/-- An iteration is enabled when the FIFO is non-empty or the mode is not `Stopped` (R181). -/
def enabled (s : State) : Bool := !s.fifo.isEmpty || decide (s.mode ≠ .stopped)

/-- The RCB's turn: an iteration where one is enabled. A held RCB has no step (R181): its turn changes nothing (log
entry 7). -/
def rcbTurn (s : State) : Result :=
  if enabled s then iteration s else .next s

/-- A sequencer word at the StepSequencer's own port: decoded, executed, consumed (log entry 8). -/
def sequencerTurn (w : SeqWord) (s : State) : Result :=
  exec (decodeSeq w) (clearRecords { s with seqPort := none })

/-- The boot of the system (R270, R271): every state element at its reset value and the FIFO empty. The tick source is not
reset and no request is issued (R271); the switch level, the mailboxes and the agents still to act are outside the RCB. -/
def bootState (s : State) : State :=
  { State.resetWith s.cfg with
    tickNow := s.tickNow
    sw := s.sw
    ledBox := s.ledBox
    toneBox := s.toneBox
    agenda := s.agenda }

/-- The next agent's turn (R256). A sequencer word at the port goes first; then the first step of the agenda; with an empty
agenda the RCB has every turn. A blocking push into a full FIFO has no step: its producer is held, the entry stays, and the
RCB has the turn, whose pop lifts the hold (R68, R81). -/
def agentTurn (s : State) : Result :=
  match s.seqPort with
  | some w => sequencerTurn w s
  | none =>
    match s.agenda with
    | [] => rcbTurn s
    | .wake :: rest => rcbTurn { s with agenda := rest }
    | .pushBlocking c :: rest =>
      if fifoFull s then rcbTurn s else .next (fifoAppend c (clearRecords { s with agenda := rest }))
    | .pushNonBlocking c :: rest => .next (fifoPushNonBlocking c (clearRecords { s with agenda := rest }))
    | .tickAdvance k :: rest => tickAdvance k (clearRecords { s with agenda := rest })
    | .setSwitch level :: rest => .next (clearRecords { s with sw := level, agenda := rest })
    | .boot :: rest => .next (bootState { s with agenda := rest })

end Sys2Proof.Machine
end

