-- ==== Sys2Proof/Machine/Step.lean ====
section
/-! DEFINITION. `step`, the one step of the whole, and the placing of an instruction where the next step takes it. -/

namespace Sys2Proof.Machine

/-- One step: the next agent's turn, in a legal configuration. A configuration that breaks R9 is refused (U1). -/
def step (s : State) : Host.Outcome State Fault Refusal :=
  if s.cfg.Legal then agentTurn s else .refused .badConfig

/-- The state with a word of the opcode table placed so that the very next step runs it (log entries 8 and 9): a sequencer
word at the StepSequencer's port; a token at the head of the command FIFO, with the RCB's turn next. A word the table has no
row for changes nothing. -/
def State.withFetchWord (s : State) (nbits w : Nat) : State :=
  match tableCode nbits w with
  | some (.seq word) => { s with seqPort := some word }
  | some (.cmd token) =>
    { s with
      seqPort := none
      fifo := token :: s.fifo.tail
      agenda := match s.agenda with
        | [] => []
        | .wake :: rest => .wake :: rest
        | a :: rest => .wake :: a :: rest }
  | none => s

end Sys2Proof.Machine
end

