-- ==== Sys2Proof/Safety.lean ====
section
/-! DEFINITION. What counts as a safe state: the invariants of spec/10_state.md R47 and what the rules that cite them rest on
(R147 (b), R185, R190), as one structure with a named field each. R47 (a), `0 <= phase <= 7`, is the type of `phase`; the
unused codes of R47 (f) are not values of `Mode`. -/

namespace Sys2Proof.Machine

/-- The invariant of every state reachable from reset, between iterations. -/
structure Inv (s : State) : Prop where
  /-- The configuration meets R9 (R275). -/
  legal : s.cfg.Legal
  /-- R47 (b): `direction = canon(mode)`. -/
  direction_canon : s.direction = canon s.mode
  /-- R47 (c): `tick_origin = 0`. -/
  origin_zero : s.tickOrigin = 0
  /-- R47 (d): the coil is off or shows the row of the current phase. -/
  coil_row : s.coil = 0 ∨ s.coil = coilRomRead s.cfg (romAddress s.cfg.topology s.phase)
  /-- R47 (e): in `Stopped` the coil is off and the step index is 0. -/
  stopped_quiet : s.mode = .stopped → s.coil = 0 ∧ s.stepCount = 0
  /-- R47 (f): the homing modes occur only with `HOMING`. -/
  homing_modes : s.cfg.homing = false → isHomingMode s.mode = false
  /-- R47 (g): with `BOUNDS_CHECK`, `pos <= TRAVEL_LIMIT + 1`. -/
  pos_bound : s.cfg.boundsCheck = true → s.pos.toInt ≤ (s.cfg.travelLimit : Int) + 1
  /-- R147 (b): the step index never passes the tick source. -/
  count_le_ticks : s.stepCount.toNat ≤ s.tickNow.toNat
  /-- R185: in `HomingQuitting` the position is between `−QUIT_OFFSET` and 0. -/
  quitting_pos : s.mode = .homingQuitting → -(s.cfg.quitOffset : Int) ≤ s.pos.toInt ∧ s.pos.toInt ≤ 0
  /-- R67: `len(q) <= CMD_DEPTH`. -/
  fifo_bound : s.fifo.length ≤ s.cfg.cmdDepth
  /-- R190: no sequencer command stands outside an iteration. -/
  port_empty : s.seqPort = none

end Sys2Proof.Machine
end

