-- ==== Sys2Proof/Certificates/Slice0/Obligations.lean ====
section
/-! DEFINITION. The statements for the provers, after the few words they share. Each says which rule of spec/ it formalises;
a clause that is the model's own choice names its log entry. -/

namespace Sys2Proof.Statement

open Sys2Proof.Machine

/-- The coil table the build reads (R61). -/
def activeTable (c : Config) : CoilTable :=
  match c.topology with
  | .bipolar => c.bipolarTable
  | .unipolar => c.unipolarTable

/-- The next step is the RCB's own turn: nothing stands at the sequencer port, and the agenda is empty, or wakes the RCB, or
begins with a producer held at a full FIFO (R68, R181; log entries 6 and 8). -/
def RcbHasTurn (s : State) : Prop :=
  s.seqPort = none ∧
  (s.agenda = [] ∨ (∃ rest, s.agenda = .wake :: rest) ∨
    ∃ c rest, s.agenda = .pushBlocking c :: rest ∧ s.cfg.cmdDepth ≤ s.fifo.length)

/-- What a turn of the RCB leaves of the agenda: a wake is used up, a held push stays. -/
def agendaAfterTurn : List AgentStep → List AgentStep
  | .wake :: rest => rest
  | l => l

/-- The state an iteration begins with: the agenda moved on, the records of the last step gone. -/
def begun (s : State) : State :=
  { s with agenda := agendaAfterTurn s.agenda, outputs := [], events := [] }

/-- The state after entering mode `m` with direction `d` and LED request `l`: the writes of R171 and nothing else. -/
def entered (m : Mode) (d : Direction) (l : Led) (s : State) : State :=
  { s with
    mode := m
    direction := d
    tickOrigin := 0
    tickNow := 0
    stepCount := 0
    coil := 0
    ledBox := some l
    outputs := s.outputs ++ [.tickRst, .led l] }

/-- The state after an unrecognised token (R216). -/
def diagnosed (c : Token) (s : State) : State :=
  { s with events := s.events ++ [.invalidToken c], outputs := s.outputs ++ [.diag c] }

/-- With the sample `b` of the switch, none of the causes of steps 2 to 4 holds (R183 to R185). -/
def NoHomingCause (b : Bool) (s : State) : Prop :=
  ¬(s.cfg.homing = true ∧ s.mode = .rewind ∧ s.swPrev = false ∧ b = true) ∧
  ¬(s.cfg.homing = true ∧ s.mode = .homingFound ∧ s.swPrev = true ∧ b = false) ∧
  ¬(s.cfg.homing = true ∧ s.mode = .homingQuitting ∧ 0 ≤ s.pos.toInt)

/-- With the sample `b` of the switch, none of the causes of steps 2 to 5 holds (R183 to R186). -/
def NoCause (b : Bool) (s : State) : Prop :=
  NoHomingCause b s ∧
  ¬(s.cfg.boundsCheck = true ∧ s.direction = .forward ∧ (s.cfg.travelLimit : Int) < s.pos.toInt)

/-- Column `s p t f r` of the transition table: the mode a token leads to (R191, R217). -/
def tokenTarget (homing : Bool) (c : Token) (m : Mode) : Mode :=
  if c = 0x73#8 ∨ c = 0x70#8 then .tracking
  else if c = 0x74#8 then .stopped
  else if c = 0x66#8 then .fastForward
  else if c = 0x72#8 ∧ homing = true then .rewind
  else m

/-- The transition table of R191, its columns in the order the iteration tests them; a later cause sees the mode an earlier
one set. `pos` is the position at the start of the iteration. -/
def tableMode (c : Config) (token : Option Token) (swPrev sw : Bool) (pos : Int) (mode : Mode) : Mode :=
  let m1 := match token with
    | none => mode
    | some t => tokenTarget c.homing t mode
  let m2 := if c.homing = true ∧ m1 = .rewind ∧ swPrev = false ∧ sw = true then .homingFound else m1
  let m3 := if c.homing = true ∧ m2 = .homingFound ∧ swPrev = true ∧ sw = false then .homingQuitting else m2
  let pos3 := if c.homing = true ∧ m2 = .homingFound ∧ swPrev = true ∧ sw = false then -(c.quitOffset : Int) else pos
  let m4 := if c.homing = true ∧ m3 = .homingQuitting ∧ 0 ≤ pos3 then .stopped else m3
  if c.boundsCheck = true ∧ (m4 = .tracking ∨ m4 = .fastForward ∨ m4 = .homingFound ∨ m4 = .homingQuitting) ∧
      (c.travelLimit : Int) < pos3 then .stopped
  else m4

/-- The instruction is a sequencer command (format SEQ, the reserved word apart). -/
def isSequencerCommand : Instr → Bool
  | .stepFwd => true
  | .stepRev => true
  | .stepNull => true
  | .stop _ => true
  | _ => false

/-- How far a list of sequencer commands moves `pos`: forward steps less backward steps (R127). -/
def netSteps : List Instr → Int
  | [] => 0
  | .stepFwd :: rest => 1 + netSteps rest
  | .stepRev :: rest => -1 + netSteps rest
  | _ :: rest => netSteps rest

/-- A list of instructions, one after the other. -/
def execAll : List Instr → State → Result
  | [], s => .next s
  | i :: rest, s => andThen (exec i s) (execAll rest)

/-- `n` steps, ending at the first fault or refusal. -/
def runSteps : Nat → State → Result
  | 0, s => .next s
  | n + 1, s => andThen (step s) (runSteps n)

/-- Two outcomes agree as far as `f` shows: both a next state that `f` maps to the same, or the same stop. -/
def AgreeUpTo (f : State → State) (a b : Result) : Prop :=
  match a, b with
  | .next s, .next t => f s = f t
  | .fault x, .fault y => x = y
  | .refused x, .refused y => x = y
  | _, _ => False

/-- The state without what the feedback side sees of it: mailboxes, outputs, events. -/
def withoutFeedback (s : State) : State :=
  { s with ledBox := none, toneBox := none, outputs := [], events := [] }

/-- The state without the switch level and its last sample. -/
def withoutSwitch (s : State) : State :=
  { s with sw := false, swPrev := false }

/-- An agenda of `n` rounds, each `k` ticks and one turn of the RCB, and one more turn. -/
def paced (k : Nat) : Nat → List AgentStep
  | 0 => [.wake]
  | n + 1 => .tickAdvance k :: .wake :: paced k n

end Sys2Proof.Statement

open Sys2Proof Sys2Proof.Machine Sys2Proof.Statement

/-! ### The StepSequencer -/

/-- `STEP_FWD` (R121): the phase moves by `ddir` modulo 8, the coil takes the row of the new phase, `pos` moves by +1
whatever `ddir` is, nothing else changes; at `pos` = 2^31 − 1 it is `fault PosOverflow`; the word is `0b001`. -/
def Obligations.StepFwdAdvances : Prop :=
  decodeSeq 0b001#3 = .stepFwd ∧
  ∀ s : State,
    (s.pos.toInt < 2147483647 → ∃ t, exec .stepFwd s = .next t ∧
      (t.phase.toNat : Int) = ((s.phase.toNat : Int) + signValue s.ddir) % 8 ∧
      t.coil = tableRow (activeTable s.cfg) t.phase ∧
      t.pos.toInt = s.pos.toInt + 1 ∧
      t = { s with phase := t.phase, coil := t.coil, pos := t.pos }) ∧
    (s.pos.toInt = 2147483647 → exec .stepFwd s = .fault .posOverflow)

/-- `STEP_REV` (R122): the phase moves by `−ddir` modulo 8, the coil takes the row of the new phase, `pos` moves by −1,
nothing else changes; at `pos` = −2^31 it is `fault PosOverflow`; the word is `0b011`. -/
def Obligations.StepRevRetreats : Prop :=
  decodeSeq 0b011#3 = .stepRev ∧
  ∀ s : State,
    (-2147483648 < s.pos.toInt → ∃ t, exec .stepRev s = .next t ∧
      (t.phase.toNat : Int) = ((s.phase.toNat : Int) - signValue s.ddir) % 8 ∧
      t.coil = tableRow (activeTable s.cfg) t.phase ∧
      t.pos.toInt = s.pos.toInt - 1 ∧
      t = { s with phase := t.phase, coil := t.coil, pos := t.pos }) ∧
    (s.pos.toInt = -2147483648 → exec .stepRev s = .fault .posOverflow)

/-- `STEP_NULL` (R123): the coil takes the row of the current phase; nothing else changes, and it never faults. -/
def Obligations.StepNullReenergises : Prop :=
  ∀ s : State, exec .stepNull s = .next { s with coil := tableRow (activeTable s.cfg) s.phase }

/-- `STOP` (R124): the four pins are off; nothing else changes; the `dir` bits are ignored; the words are `0b1xx`. -/
def Obligations.StopDeenergises : Prop :=
  (∀ x : BitVec 2, ∀ s : State, exec (.stop x) s = .next { s with coil := 0 }) ∧
  (∀ w : SeqWord, w.getLsbD 2 = true ↔ ∃ x, decodeSeq w = .stop x)

/-- The reserved sequencer word `0b010`, and no other, is refused by name (R97, U6). -/
def Obligations.ReservedWordIsRefused : Prop :=
  (∀ w : SeqWord, decodeSeq w = .seqReserved ↔ w = 0b010#3) ∧
  (∀ s : State, exec .seqReserved s = .refused .reservedSeq)

/-- The laws of R127 over any sequence of sequencer commands: the phase has moved by `ddir` times the net steps modulo 8 and
`pos` by the net steps; everything but phase, coil and `pos` is unchanged. -/
def Obligations.SequencerCommandsAddUp : Prop :=
  ∀ (l : List Instr) (s t : State), (∀ i ∈ l, isSequencerCommand i = true) → execAll l s = .next t →
    (t.phase.toNat : Int) = ((s.phase.toNat : Int) + netSteps l * signValue s.ddir) % 8 ∧
    t.pos.toInt = s.pos.toInt + netSteps l ∧
    t = { s with phase := t.phase, coil := t.coil, pos := t.pos }

/-- Eight steps in a row bring the phase back and move `pos` by 8 (R128); the coil shows the row of that phase. -/
def Obligations.EightStepsAreOneCycle : Prop :=
  ∀ s : State,
    (s.pos.toInt + 8 ≤ 2147483647 → ∃ t, execAll (List.replicate 8 .stepFwd) s = .next t ∧
      t.pos.toInt = s.pos.toInt + 8 ∧
      t = { s with pos := t.pos, coil := tableRow (activeTable s.cfg) s.phase }) ∧
    (-2147483648 ≤ s.pos.toInt - 8 → ∃ t, execAll (List.replicate 8 .stepRev) s = .next t ∧
      t.pos.toInt = s.pos.toInt - 8 ∧
      t = { s with pos := t.pos, coil := tableRow (activeTable s.cfg) s.phase })

/-- The coil ROM (R61, R77): address `{t, phase}`, rows 0 to 7 bipolar, rows 8 to 15 unipolar. -/
def Obligations.CoilRomAddressing : Prop :=
  ∀ (c : Config) (a : BitVec 4),
    (a.toNat < 8 → coilRomRead c a = tableRow c.bipolarTable (BitVec.ofNat 3 a.toNat)) ∧
    (8 ≤ a.toNat → coilRomRead c a = tableRow c.unipolarTable (BitVec.ofNat 3 (a.toNat - 8)))

/-! ### The command tokens -/

/-- `s` and `p` (R210, R211): inert in `Tracking`; otherwise exactly the writes of a transition to `Tracking` and the outputs
`TICK_RST, LED_SLOW`. -/
def Obligations.StartTokensEnterTracking : Prop :=
  ∀ s : State,
    exec .cmdS s = .next (if s.mode = .tracking then s else entered .tracking .forward .slow s) ∧
    exec .cmdP s = .next (if s.mode = .tracking then s else entered .tracking .forward .slow s)

/-- `t` (R212): inert in `Stopped`; otherwise exactly the writes of a transition to `Stopped`, outputs
`TICK_RST, LED_SOLID`, no tone. -/
def Obligations.StopTokenEntersStopped : Prop :=
  ∀ s : State, exec .cmdT s = .next (if s.mode = .stopped then s else entered .stopped .none .solid s)

/-- `f` (R213): inert in `FastForward`; otherwise exactly the writes of a transition to `FastForward`, outputs
`TICK_RST, LED_FAST`. -/
def Obligations.FastForwardTokenEntersFastForward : Prop :=
  ∀ s : State, exec .cmdF s = .next (if s.mode = .fastForward then s else entered .fastForward .forward .fast s)

/-- `r` (R214): with homing, inert in `Rewind` and otherwise exactly the writes of a transition to `Rewind`, outputs
`TICK_RST, LED_THIRD`; without homing, an unrecognised token. -/
def Obligations.RewindTokenNeedsHoming : Prop :=
  ∀ s : State,
    (s.cfg.homing = true →
      exec .cmdR s = .next (if s.mode = .rewind then s else entered .rewind .backward .third s)) ∧
    (s.cfg.homing = false → exec .cmdR s = .next (diagnosed 0x72#8 s))

/-- `d` (R215): writes `ddir` only and sounds the scale of the new sign; twice, `ddir` is what it was; the token is 0x64. -/
def Obligations.ToggleIsAnInvolution : Prop :=
  (∀ homing : Bool, decodeCmd homing 0x64#8 = .cmdD) ∧
  ∀ s : State,
    (s.ddir = .plus → exec .cmdD s =
      .next { s with ddir := .minus, outputs := s.outputs ++ [.tone .scaleDown], toneBox := some .scaleDown }) ∧
    (s.ddir = .minus → exec .cmdD s =
      .next { s with ddir := .plus, outputs := s.outputs ++ [.tone .scaleUp], toneBox := some .scaleUp }) ∧
    ∃ t, execAll [.cmdD, .cmdD] s = .next t ∧ t.ddir = s.ddir

/-- R129: a toggle, in any mode, touches neither phase nor `pos` nor coil, and the next step walks the table the other way
from the current row while `pos` goes on counting the nominal direction. -/
def Obligations.ToggleReversesTheNextStep : Prop :=
  ∀ s : State, ∃ u,
    exec .cmdD s = .next u ∧ u.phase = s.phase ∧ u.pos = s.pos ∧ u.coil = s.coil ∧ u.mode = s.mode ∧
    (s.pos.toInt < 2147483647 → ∃ t, exec .stepFwd u = .next t ∧
      (t.phase.toNat : Int) = ((s.phase.toNat : Int) - signValue s.ddir) % 8 ∧
      t.pos.toInt = s.pos.toInt + 1) ∧
    (-2147483648 < s.pos.toInt → ∃ t, exec .stepRev u = .next t ∧
      (t.phase.toNat : Int) = ((s.phase.toNat : Int) + signValue s.ddir) % 8 ∧
      t.pos.toInt = s.pos.toInt - 1)

/-- Any other token (R216): no state element changes; `InvalidToken(c)` is raised and the token goes out on `diag`. -/
def Obligations.UnrecognisedTokenIsDiagnosed : Prop :=
  ∀ (c : Token) (s : State), exec (.cmdUnrec c) s = .next (diagnosed c s)

/-! ### Encodings -/

/-- Words of the opcode table written out bit by bit from the spec decode to their instructions (R91, R97), case-sensitive,
`r` with homing only. A sanity statement. -/
def Obligations.TableWordsDecode : Prop :=
  decodeCmd false 0b01110011#8 = .cmdS ∧ decodeCmd false 0b01110000#8 = .cmdP ∧
  decodeCmd false 0b01110100#8 = .cmdT ∧ decodeCmd false 0b01100110#8 = .cmdF ∧
  decodeCmd true 0b01110010#8 = .cmdR ∧ decodeCmd false 0b01110010#8 = .cmdUnrec 0x72#8 ∧
  decodeCmd false 0b01100100#8 = .cmdD ∧ decodeCmd true 0x53#8 = .cmdUnrec 0x53#8 ∧
  decodeCmd true 0x00#8 = .cmdUnrec 0x00#8 ∧
  decodeSeq 0b001#3 = .stepFwd ∧ decodeSeq 0b011#3 = .stepRev ∧ decodeSeq 0b000#3 = .stepNull ∧
  decodeSeq 0b100#3 = .stop 0b00#2 ∧ decodeSeq 0b111#3 = .stop 0b11#2 ∧ decodeSeq 0b010#3 = .seqReserved

/-- Decode and encode agree (R91, R92, R95, R97): every well-formed instruction decodes from its own code; every token and
every sequencer word is the code of what it decodes to; and what it decodes to is well-formed, the reserved word apart. -/
def Obligations.DecodeAndEncodeAgree : Prop :=
  ∀ homing : Bool,
    (∀ i : Instr, i.wf homing = true → decode homing (encode i) = i) ∧
    (∀ c : Code, encode (decode homing c) = c) ∧
    (∀ c : Code, (decode homing c).wf homing = true ∨ c = .seq 0b010#3)

/-- The table of R98, row by row: the code of each mode, whether it needs `HOMING`, its canonical direction, its rate class;
the codes 6 and 7 stand for no mode (U7). And the codes of R99: `direction` in 2 bit two's complement, `0b10` for nothing;
`ddir` as `1 − 2·bit`. -/
def Obligations.StateCodesReadBack : Prop :=
  (modeCode .stopped = 0b000#3 ∧ isHomingMode .stopped = false ∧ canon .stopped = .none ∧ rateClass .stopped = none) ∧
  (modeCode .tracking = 0b001#3 ∧ isHomingMode .tracking = false ∧ canon .tracking = .forward ∧
    rateClass .tracking = some .sidereal) ∧
  (modeCode .fastForward = 0b010#3 ∧ isHomingMode .fastForward = false ∧ canon .fastForward = .forward ∧
    rateClass .fastForward = some .fast) ∧
  (modeCode .rewind = 0b011#3 ∧ isHomingMode .rewind = true ∧ canon .rewind = .backward ∧
    rateClass .rewind = some .fast) ∧
  (modeCode .homingFound = 0b100#3 ∧ isHomingMode .homingFound = true ∧ canon .homingFound = .forward ∧
    rateClass .homingFound = some .fast) ∧
  (modeCode .homingQuitting = 0b101#3 ∧ isHomingMode .homingQuitting = true ∧ canon .homingQuitting = .forward ∧
    rateClass .homingQuitting = some .fast) ∧
  (∀ m : Mode, modeOfCode (modeCode m) = some m) ∧ (∀ b : BitVec 3, modeOfCode b = none ↔ b = 6 ∨ b = 7) ∧
  (∀ d : Direction, directionOfCode (directionCode d) = some d ∧ (directionCode d).toInt = directionValue d) ∧
  (∀ b : BitVec 2, directionOfCode b = none ↔ b = 0b10#2) ∧
  (∀ g : Sign, signValue g = 1 - 2 * ((signCode g).toNat : Int))

/-! ### The RateClock -/

/-- `TICKS_SIDEREAL` (R141): the floor of `n*T/S`, no overflow in 64 bits for `n` up to 2^32, 0 at 0, `T` at `S`, an error
below one tick at every `n`, and 4981 at 1 in profile A. -/
def Obligations.TicksSiderealIsTheFloor : Prop :=
  (∀ (c : Config) (n : Nat), c.Legal →
    c.stepsForFullRotation * ticksSidereal c n ≤ n * c.ticksPerSiderealDay ∧
    n * c.ticksPerSiderealDay < c.stepsForFullRotation * (ticksSidereal c n + 1) ∧
    (n ≤ 4294967296 → n * c.ticksPerSiderealDay < 18446744073709551616) ∧
    ticksSidereal c 0 = 0 ∧ ticksSidereal c c.stepsForFullRotation = c.ticksPerSiderealDay) ∧
  ticksSidereal Config.profileA 1 = 4981

/-- R146 and the bound of R147: due times are strictly increasing in the step index and never below it, in both classes. -/
def Obligations.DueTimesIncrease : Prop :=
  ∀ (c : Config) (k : RateClass) (m n : Nat), c.Legal →
    (m ≤ n → ticks c k m ≤ ticks c k n) ∧ (m < n → ticks c k m < ticks c k n) ∧ n ≤ ticks c k n

/-- The four stages, each exact on its operands (R150 to R154): P1 does not wrap, P2 is the full product, P3 the floor (the
product itself in class fast), P4 the unsigned comparison. -/
def Obligations.PipelineStagesAreExact : Prop :=
  (∀ w : Word, (stageIndex w).toNat = w.toNat + 1) ∧
  (∀ (n1 : Wide) (num : Word), n1.toNat ≤ 4294967296 → (stageMultiply n1 num).toNat = n1.toNat * num.toNat) ∧
  (∀ (p : Wide) (den : Word), (stageDivide p den).toNat = p.toNat / den.toNat) ∧
  (∀ (c : Config) (k : RateClass), c.Legal → 1 ≤ (rateDen c k).toNat) ∧
  (∀ (c : Config) (p : Wide), stageDivide p (rateDen c .fast) = p) ∧
  (∀ (now : Word) (q : Wide), stageCompare now q = true ↔ q.toNat ≤ now.toNat)

/-- `DUE` (R145, R149): the 64 bit pipeline computes exactly `now >= ticks(mode, step_count + 1)`; a due time of 2^32 or more
is never reached; right after a mode entry no step is due. -/
def Obligations.DueIsTheExactTest : Prop :=
  ∀ (s : State) (k : RateClass), s.cfg.Legal → rateClass s.mode = some k →
    (dueTime s.cfg k s.stepCount).toNat = ticks s.cfg k (s.stepCount.toNat + 1) ∧
    (due s = true ↔ ticks s.cfg k (s.stepCount.toNat + 1) ≤ (s.tickNow - s.tickOrigin).toNat) ∧
    (4294967296 ≤ ticks s.cfg k (s.stepCount.toNat + 1) → due s = false) ∧
    (s.stepCount = 0 → s.tickNow = 0 → s.tickOrigin = 0 → due s = false)

/-! ### The step: what is fetched is run -/

/-- On the RCB's turn with a token `c` at the head of the FIFO, the step is: pop `c`, run the instruction `c` decodes to, then
steps 2 to 6 with the sampled switch level (R180, R182). -/
def Obligations.StepRunsTheHeadToken : Prop :=
  ∀ (s : State) (c : Token) (rest : List Token), s.cfg.Legal → RcbHasTurn s → s.fifo = c :: rest →
    step s = andThen (exec (decodeCmd s.cfg.homing c) { begun s with fifo := rest }) (afterDispatch s.sw)

/-- With an empty FIFO a turn in a moving mode is steps 2 to 6 alone (R180, R181). -/
def Obligations.StepWithoutATokenRunsTheTests : Prop :=
  ∀ s : State, s.cfg.Legal → RcbHasTurn s → s.fifo = [] → s.mode ≠ .stopped → step s = afterDispatch s.sw (begun s)

/-- A word at the sequencer port is decoded, executed and consumed in one step. That a word can stand there between two
steps is the model's own (log entry 8). -/
def Obligations.StepRunsThePortWord : Prop :=
  ∀ (s : State) (w : SeqWord), s.cfg.Legal → s.seqPort = some w →
    step s = exec (decodeSeq w) { s with seqPort := none, outputs := [], events := [] }

/-- R181, R258: in `Stopped` with an empty FIFO the RCB is held: its turn changes nothing. That a held turn is shown as a
step is the model's own (log entry 7). -/
def Obligations.StoppedAndEmptyIsHeld : Prop :=
  ∀ s : State, s.cfg.Legal → RcbHasTurn s → s.fifo = [] → s.mode = .stopped →
    step s = .next { s with agenda := agendaAfterTurn s.agenda }

/-- A configuration that breaks a constraint of R9 is refused (U1), and no step runs in it. -/
def Obligations.IllegalConfigurationIsRefused : Prop :=
  ∀ s : State, ¬ s.cfg.Legal → step s = .refused .badConfig

/-! ### Steps 2 to 6 of an iteration

The next six statements are of `afterDispatch b u`: steps 2 to 6 and the end of an iteration with the sample `b`, on any state
`u` that step 1 can leave. With `StepRunsTheHeadToken` they hold of a turn that pops a token, with
`StepWithoutATokenRunsTheTests` of one that pops none. Outputs and events are appended to those of step 1. -/

/-- Step 2 (R183, R289): `Rewind` and the switch newly pressed: `HomingFound`, motor stopped, no step; above the travel limit
step 5 of the same iteration forces `Stopped` with one alert. -/
def Obligations.SwitchPressedFindsHome : Prop :=
  ∀ u : State, u.cfg.Legal → u.cfg.homing = true → u.mode = .rewind → u.swPrev = false →
    (¬(u.cfg.boundsCheck = true ∧ (u.cfg.travelLimit : Int) < u.pos.toInt) →
      afterDispatch true u = .next { entered .homingFound .forward .third u with swPrev := true }) ∧
    (u.cfg.boundsCheck = true ∧ (u.cfg.travelLimit : Int) < u.pos.toInt →
      afterDispatch true u = .next { entered .stopped .none .solid (entered .homingFound .forward .third u) with
        swPrev := true
        toneBox := some .alert
        events := u.events ++ [.boundsViolation]
        outputs := u.outputs ++ [.tickRst, .led .third, .tickRst, .led .solid, .tone .alert] })

/-- Step 3 (R184): `HomingFound` and the switch newly released: `pos` is set to `−QUIT_OFFSET` whatever it was and the mode is
`HomingQuitting`; no step is taken. -/
def Obligations.SwitchReleasedSnapshotsPosition : Prop :=
  ∀ u : State, u.cfg.Legal → u.cfg.homing = true → u.mode = .homingFound → u.swPrev = true →
    ∃ p : Word, p.toInt = -(u.cfg.quitOffset : Int) ∧
      afterDispatch false u = .next { entered .homingQuitting .forward .third u with pos := p, swPrev := false }

/-- Step 4 (R185, R236): `HomingQuitting` with `pos >= 0`: `Stopped`, the event `HomingDone`, the outputs of the transition and
then the success tone. -/
def Obligations.HomeReachedStopsWithSuccess : Prop :=
  ∀ (u : State) (b : Bool), u.cfg.homing = true → u.mode = .homingQuitting → 0 ≤ u.pos.toInt →
    afterDispatch b u = .next { entered .stopped .none .solid u with
      swPrev := b
      toneBox := some .success
      events := u.events ++ [.homingDone]
      outputs := u.outputs ++ [.tickRst, .led .solid, .tone .success] }

/-- Step 5 (R186, R232, R245): moving forward past the travel limit, in a mode other than `Stopped` and with no homing cause:
forced `Stopped` with exactly one alert, `phase`, `pos` and `ddir` kept. At the limit itself nothing is forced
(`DueStepIsTaken` and `NoStepBeforeItsTime` apply there). -/
def Obligations.TravelLimitForcesStop : Prop :=
  ∀ (u : State) (b : Bool), NoHomingCause b u → u.cfg.boundsCheck = true → u.direction = .forward → u.mode ≠ .stopped →
    (u.cfg.travelLimit : Int) < u.pos.toInt →
    afterDispatch b u = .next { entered .stopped .none .solid u with
      swPrev := b
      toneBox := some .alert
      events := u.events ++ [.boundsViolation]
      outputs := u.outputs ++ [.tickRst, .led .solid, .tone .alert] }

/-- Step 6 (R187): a due step is taken, one sequencer command of the direction and one count; nothing is emitted and nothing
but phase, coil, `pos`, `step_count` and `sw_prev` changes. -/
def Obligations.DueStepIsTaken : Prop :=
  ∀ (u : State) (b : Bool) (k : RateClass), u.cfg.Legal → rateClass u.mode = some k → NoCause b u →
    ticks u.cfg k (u.stepCount.toNat + 1) ≤ (u.tickNow - u.tickOrigin).toNat →
    -2147483648 ≤ u.pos.toInt + directionValue u.direction → u.pos.toInt + directionValue u.direction ≤ 2147483647 →
    ∃ t, afterDispatch b u = .next t ∧
      (t.phase.toNat : Int) = ((u.phase.toNat : Int) + directionValue u.direction * signValue u.ddir) % 8 ∧
      t.coil = tableRow (activeTable u.cfg) t.phase ∧
      t.pos.toInt = u.pos.toInt + directionValue u.direction ∧
      t.stepCount.toNat = u.stepCount.toNat + 1 ∧
      t = { u with phase := t.phase, coil := t.coil, pos := t.pos, stepCount := t.stepCount, swPrev := b }

/-- R293, and R187 in `Stopped`: a step is never early. Before the due time, and in `Stopped` at any time, steps 2 to 6 with no
cause change nothing but `sw_prev`. -/
def Obligations.NoStepBeforeItsTime : Prop :=
  ∀ (u : State) (b : Bool), u.cfg.Legal → NoCause b u →
    (u.mode = .stopped ∨ ∃ k, rateClass u.mode = some k ∧
      (u.tickNow - u.tickOrigin).toNat < ticks u.cfg k (u.stepCount.toNat + 1)) →
    afterDispatch b u = .next { u with swPrev := b }

/-! ### The iteration -/

/-- R218 (c), R216: a turn with no token, or with one that leaves the mode (inert, `d`, unrecognised), takes the step that is
due, with the `ddir` the token left, and takes none before its time. -/
def Obligations.QuietTokenLeavesTheTimingRunning : Prop :=
  ∀ (s : State) (k : RateClass), s.cfg.Legal → RcbHasTurn s → rateClass s.mode = some k → NoCause s.sw s →
    (∀ c, s.fifo.head? = some c → tokenTarget s.cfg.homing c s.mode = s.mode) →
    (ticks s.cfg k (s.stepCount.toNat + 1) ≤ (s.tickNow - s.tickOrigin).toNat →
      -2147483648 ≤ s.pos.toInt + directionValue s.direction → s.pos.toInt + directionValue s.direction ≤ 2147483647 →
      ∃ t, step s = .next t ∧
        t.ddir = (if s.fifo.head? = some 0x64#8 then signFlip s.ddir else s.ddir) ∧
        (t.phase.toNat : Int) = ((s.phase.toNat : Int) + directionValue s.direction * signValue t.ddir) % 8 ∧
        t.coil = tableRow (activeTable s.cfg) t.phase ∧
        t.pos.toInt = s.pos.toInt + directionValue s.direction ∧
        t.stepCount.toNat = s.stepCount.toNat + 1 ∧
        t = { begun s with
          fifo := s.fifo.tail, swPrev := s.sw, ddir := t.ddir
          phase := t.phase, coil := t.coil, pos := t.pos, stepCount := t.stepCount
          toneBox := t.toneBox, outputs := t.outputs, events := t.events }) ∧
    ((s.tickNow - s.tickOrigin).toNat < ticks s.cfg k (s.stepCount.toNat + 1) →
      ∃ t, step s = .next t ∧
        t.ddir = (if s.fifo.head? = some 0x64#8 then signFlip s.ddir else s.ddir) ∧
        t = { begun s with
          fifo := s.fifo.tail, swPrev := s.sw, ddir := t.ddir
          toneBox := t.toneBox, outputs := t.outputs, events := t.events })

/-- R218 (a): `s`, `p` or `f` above the travel limit enters its mode and is forced back to `Stopped` in the same turn, with one
alert and the outputs of both transitions in order. -/
def Obligations.ForwardTokenAboveTheLimitIsForcedBack : Prop :=
  ∀ (s : State) (c : Token) (rest : List Token), s.cfg.Legal → RcbHasTurn s → s.fifo = c :: rest →
    s.cfg.boundsCheck = true → (s.cfg.travelLimit : Int) < s.pos.toInt →
    ((c = 0x73#8 ∨ c = 0x70#8) → s.mode ≠ .tracking →
      step s = .next { entered .stopped .none .solid (begun s) with
        fifo := rest
        swPrev := s.sw
        toneBox := some .alert
        events := [.boundsViolation]
        outputs := [.tickRst, .led .slow, .tickRst, .led .solid, .tone .alert] }) ∧
    (c = 0x66#8 → s.mode ≠ .fastForward →
      step s = .next { entered .stopped .none .solid (begun s) with
        fifo := rest
        swPrev := s.sw
        toneBox := some .alert
        events := [.boundsViolation]
        outputs := [.tickRst, .led .fast, .tickRst, .led .solid, .tone .alert] })

/-- R183, R193: `r` with the switch newly pressed goes through `Rewind` to `HomingFound` in one turn, with the outputs of both
transitions; above the travel limit a third transition forces `Stopped` (R289). -/
def Obligations.RewindOntoThePressedSwitch : Prop :=
  ∀ (s : State) (rest : List Token), s.cfg.Legal → RcbHasTurn s → s.fifo = 0x72#8 :: rest → s.cfg.homing = true →
    s.mode ≠ .rewind → s.swPrev = false → s.sw = true →
    (¬(s.cfg.boundsCheck = true ∧ (s.cfg.travelLimit : Int) < s.pos.toInt) →
      step s = .next { entered .homingFound .forward .third (begun s) with
        fifo := rest
        swPrev := true
        outputs := [.tickRst, .led .third, .tickRst, .led .third] }) ∧
    (s.cfg.boundsCheck = true ∧ (s.cfg.travelLimit : Int) < s.pos.toInt →
      step s = .next { entered .stopped .none .solid (begun s) with
        fifo := rest
        swPrev := true
        toneBox := some .alert
        events := [.boundsViolation]
        outputs := [.tickRst, .led .third, .tickRst, .led .third, .tickRst, .led .solid, .tone .alert] })

/-- R216, R231, R244: an unrecognised token does not stop the tests of its turn. Beside it the switch is found, the snapshot of
`pos` is taken, home is reached with the success tone, and the travel limit forces its one alert; the diagnostic comes first. -/
def Obligations.UnrecognisedTokenDoesNotStopTheTests : Prop :=
  ∀ (s : State) (c : Token) (rest : List Token), s.cfg.Legal → RcbHasTurn s → s.fifo = c :: rest →
    decodeCmd s.cfg.homing c = .cmdUnrec c →
    (s.cfg.homing = true → s.mode = .rewind → s.swPrev = false → s.sw = true →
      ¬(s.cfg.boundsCheck = true ∧ (s.cfg.travelLimit : Int) < s.pos.toInt) →
      step s = .next { entered .homingFound .forward .third (begun s) with
        fifo := rest
        swPrev := true
        events := [.invalidToken c]
        outputs := [.diag c, .tickRst, .led .third] }) ∧
    (s.cfg.homing = true → s.mode = .homingFound → s.swPrev = true → s.sw = false →
      ∃ p : Word, p.toInt = -(s.cfg.quitOffset : Int) ∧
        step s = .next { entered .homingQuitting .forward .third (begun s) with
          fifo := rest
          pos := p
          swPrev := false
          events := [.invalidToken c]
          outputs := [.diag c, .tickRst, .led .third] }) ∧
    (s.cfg.homing = true → s.mode = .homingQuitting → 0 ≤ s.pos.toInt →
      step s = .next { entered .stopped .none .solid (begun s) with
        fifo := rest
        swPrev := s.sw
        toneBox := some .success
        events := [.invalidToken c, .homingDone]
        outputs := [.diag c, .tickRst, .led .solid, .tone .success] }) ∧
    (NoHomingCause s.sw s → s.cfg.boundsCheck = true → s.direction = .forward → s.mode ≠ .stopped →
      (s.cfg.travelLimit : Int) < s.pos.toInt →
      step s = .next { entered .stopped .none .solid (begun s) with
        fifo := rest
        swPrev := s.sw
        toneBox := some .alert
        events := [.invalidToken c, .boundsViolation]
        outputs := [.diag c, .tickRst, .led .solid, .tone .alert] })

/-- The transition table (R191): whatever the token, the switch and the position, the mode after a turn of the RCB is the
table's. -/
def Obligations.ModeFollowsTheTransitionTable : Prop :=
  ∀ s t : State, Inv s → RcbHasTurn s → step s = .next t →
    t.mode = tableMode s.cfg s.fifo.head? s.swPrev s.sw s.pos.toInt s.mode

/-- R189: a turn of the RCB takes at most one step: either the phase stays and `pos` stays or is the snapshot of step 3, or
phase, `pos` and `step_count` move by one step of the direction, and then mode and tick source are untouched. -/
def Obligations.AtMostOneStepPerIteration : Prop :=
  ∀ s t : State, Inv s → RcbHasTurn s → step s = .next t →
    (t.phase = s.phase ∧
      (t.pos = s.pos ∨ (s.mode = .homingFound ∧ s.swPrev = true ∧ s.sw = false ∧
        t.mode = .homingQuitting ∧ t.pos.toInt = -(s.cfg.quitOffset : Int))) ∧
      (t.stepCount = s.stepCount ∨ t.stepCount = 0)) ∨
    (t.mode = s.mode ∧ t.mode ≠ .stopped ∧ t.tickNow = s.tickNow ∧
      t.stepCount.toNat = s.stepCount.toNat + 1 ∧
      t.pos.toInt = s.pos.toInt + directionValue t.direction ∧
      (t.phase.toNat : Int) = ((s.phase.toNat : Int) + directionValue t.direction * signValue t.ddir) % 8)

/-- R171, R175, R218 (b): a turn that changes the mode leaves the motor off, the step index, the tick source and its origin
at 0, the phase where it was, the canonical direction, and the LED request of the new mode in the mailbox and the outputs. -/
def Obligations.ModeChangeRestartsTheTiming : Prop :=
  ∀ s t : State, Inv s → RcbHasTurn s → step s = .next t → t.mode ≠ s.mode →
    t.coil = 0 ∧ t.stepCount = 0 ∧ t.tickNow = 0 ∧ t.tickOrigin = 0 ∧ t.phase = s.phase ∧
    t.direction = canon t.mode ∧ t.ledBox = some (ledOf t.mode) ∧
    Output.tickRst ∈ t.outputs ∧ Output.led (ledOf t.mode) ∈ t.outputs

/-- R70, R73, R74: a turn of the RCB removes the head of the FIFO, if there is one, and nothing else of it. -/
def Obligations.OneTokenPerIteration : Prop :=
  ∀ s t : State, RcbHasTurn s → step s = .next t → t.fifo = s.fifo.tail

/-! ### The other agents -/

/-- `FifoPushBlocking` (R68): with room the token joins the end and nothing else changes; into a full FIFO the push has no
step, its producer stays held and the RCB's turn makes room. The agenda and the records are the model's (log entries 6, 11). -/
def Obligations.BlockingPushWaitsForRoom : Prop :=
  ∀ (s : State) (c : Token) (rest : List AgentStep), s.cfg.Legal → s.seqPort = none → s.agenda = .pushBlocking c :: rest →
    (s.fifo.length < s.cfg.cmdDepth →
      step s = .next { s with fifo := s.fifo ++ [c], agenda := rest, outputs := [], events := [] }) ∧
    (s.cfg.cmdDepth ≤ s.fifo.length →
      ∀ t, step s = .next t → t.agenda = .pushBlocking c :: rest ∧ t.fifo = s.fifo.tail)

/-- `FifoPushNonBlocking` (R69, R234): with room the token joins the end; into a full FIFO it is dropped, the FIFO is
unchanged and only the event `CmdDropped` is recorded. The agenda and the records are the model's (log entries 6, 11). -/
def Obligations.NonBlockingPushDropsWhenFull : Prop :=
  ∀ (s : State) (c : Token) (rest : List AgentStep), s.cfg.Legal → s.seqPort = none →
    s.agenda = .pushNonBlocking c :: rest →
    (s.fifo.length < s.cfg.cmdDepth →
      step s = .next { s with fifo := s.fifo ++ [c], agenda := rest, outputs := [], events := [] }) ∧
    (s.cfg.cmdDepth ≤ s.fifo.length →
      step s = .next { s with agenda := rest, outputs := [], events := [.cmdDropped] })

/-- `TickAdvance(k)` (R250, R253): adds `k`; past 2^32 − 1 it is `fault TickOverflow`, neither wrapped nor saturated.
That the step takes the agenda's first entry and clears the records is the model's choice (log entries 6 and 11). -/
def Obligations.TickAdvanceCountsOrFaults : Prop :=
  ∀ (s : State) (k : Nat) (rest : List AgentStep), s.cfg.Legal → s.seqPort = none → s.agenda = .tickAdvance k :: rest →
    (s.tickNow.toNat + k < 4294967296 → ∃ v : Word, v.toNat = s.tickNow.toNat + k ∧
      step s = .next { s with tickNow := v, agenda := rest, outputs := [], events := [] }) ∧
    (4294967296 ≤ s.tickNow.toNat + k → step s = .fault .tickOverflow)

/-- The homing switch (R36, R256): its step sets the level and nothing else. The agenda and the records are the model's (log
entries 6, 11). -/
def Obligations.SwitchStepSetsTheLevel : Prop :=
  ∀ (s : State) (b : Bool) (rest : List AgentStep), s.cfg.Legal → s.seqPort = none → s.agenda = .setSwitch b :: rest →
    step s = .next { s with sw := b, agenda := rest, outputs := [], events := [] }

/-- Reset (R43, R270, R271): every state element takes its reset value, the FIFO is empty, no request is issued, and the tick
source, the switch and the mailboxes are not touched. That the last two and the agenda stay is the model's choice (log entry
10). -/
def Obligations.BootLoadsTheResetValues : Prop :=
  ∀ (s : State) (rest : List AgentStep), s.cfg.Legal → s.seqPort = none → s.agenda = .boot :: rest →
    step s = .next { s with
      mode := .stopped
      direction := .none
      pos := 0
      ddir := s.cfg.defdirReset
      phase := 0
      coil := 0
      stepCount := 0
      tickOrigin := 0
      swPrev := false
      fifo := []
      agenda := rest
      outputs := []
      events := [] }

/-- R33, R46: the agents outside write no state element. A step that is neither a turn of the RCB, nor a sequencer word at
the port, nor a boot leaves the nine elements, the mailboxes and the configuration as they were. -/
def Obligations.OnlyTheRcbWritesItsState : Prop :=
  ∀ s t : State, s.seqPort = none → ¬ RcbHasTurn s → (∀ rest, s.agenda ≠ .boot :: rest) → step s = .next t →
    t.phase = s.phase ∧ t.pos = s.pos ∧ t.coil = s.coil ∧ t.ddir = s.ddir ∧ t.stepCount = s.stepCount ∧
    t.tickOrigin = s.tickOrigin ∧ t.mode = s.mode ∧ t.direction = s.direction ∧ t.swPrev = s.swPrev ∧
    t.ledBox = s.ledBox ∧ t.toneBox = s.toneBox ∧ t.outputs = [] ∧ t.cfg = s.cfg

/-- R250, R252: the tick source falls only by a `TickReset`, which takes it to 0 and is recorded as `TICK_RST`. -/
def Obligations.TickSourceFallsOnlyByReset : Prop :=
  ∀ s t : State, step s = .next t →
    s.tickNow.toNat ≤ t.tickNow.toNat ∨ (t.tickNow = 0 ∧ Output.tickRst ∈ t.outputs)

/-! ### The whole machine -/

/-- R43: the state after reset is safe in every legal configuration, and it is held: nothing happens until an agent acts
(R272). -/
def Obligations.ResetIsSafeAndHeld : Prop :=
  ∀ c : Config, c.Legal → Inv (State.resetWith c) ∧ step (State.resetWith c) = .next (State.resetWith c)

/-- R47, R147 (b), R185, R190: every step of every agent keeps the invariant. -/
def Obligations.EveryStepKeepsTheInvariant : Prop :=
  ∀ s t : State, Inv s → step s = .next t → Inv t

/-- The invariant holds along every run from reset, whatever the configuration and whatever the agents do. -/
def Obligations.EveryRunFromResetIsSafe : Prop :=
  ∀ (c : Config) (agents : List AgentStep) (n : Nat) (t : State), c.Legal →
    runSteps n { State.resetWith c with agenda := agents } = .next t → Inv t

/-- R237, U2 to U4: in a safe state a step faults only when a tick advance passes the top of the tick source, or when a turn
of the RCB steps `pos` out of its range: backward in `Rewind`, or forward with `BOUNDS_CHECK` false. `StepCountOverflow`
never occurs (R147 (b)). -/
def Obligations.SafeStatesFaultOnlyOutsideTheEnvelope : Prop :=
  ∀ (s : State) (f : Fault), Inv s → step s = .fault f →
    (f = .tickOverflow ∧ ∃ k rest, s.agenda = .tickAdvance k :: rest ∧ 4294967296 ≤ s.tickNow.toNat + k) ∨
    (f = .posOverflow ∧ RcbHasTurn s ∧
      ((s.mode = .rewind ∧ s.pos.toInt = -2147483648) ∨ (s.cfg.boundsCheck = false ∧ s.pos.toInt = 2147483647)))

/-- In a safe state no step is refused: every token and every command the TSM issues has its effect (R92, R190). -/
def Obligations.SafeStatesAreNeverRefused : Prop :=
  ∀ (s : State) (r : Refusal), Inv s → step s ≠ .refused r

/-- R32: no step writes the configuration. -/
def Obligations.ConfigurationIsNeverWritten : Prop :=
  ∀ s t : State, step s = .next t → t.cfg = s.cfg

/-- R230, R233, R235: E4 `HomingStall` and E6 `ArithOverflow` are never raised. -/
def Obligations.StallAndOverflowAreNeverRaised : Prop :=
  ∀ s t : State, Event.homingStall ∉ s.events → Event.arithOverflow ∉ s.events → step s = .next t →
    Event.homingStall ∉ t.events ∧ Event.arithOverflow ∉ t.events

/-- R271, U5: while `Stopped` the value of the tick source does not matter. A turn of the RCB completes, and with another
value of `tick_now` it answers the same state, but for a `tick_now` it did not reset. -/
def Obligations.TickValueWhileStoppedDoesNotMatter : Prop :=
  ∀ (s : State) (v : Word), Inv s → RcbHasTurn s → s.mode = .stopped → ∃ t, step s = .next t ∧
    ((t.tickNow = 0 ∧ step { s with tickNow := v } = .next t) ∨
      (t.tickNow = s.tickNow ∧ t.mode = .stopped ∧ step { s with tickNow := v } = .next { t with tickNow := v }))

/-- R84, R285: the RCB never reads a request back. Two states that differ only in the mailboxes and the records take steps
that differ only there. -/
def Obligations.FeedbackIsNeverReadBack : Prop :=
  ∀ s s' : State, withoutFeedback s = withoutFeedback s' → AgreeUpTo withoutFeedback (step s) (step s')

/-- R36, U16: without homing the switch is ignored. Two states that differ only in the switch level and its last sample take
steps that differ only there. -/
def Obligations.SwitchIsIgnoredWithoutHoming : Prop :=
  ∀ s s' : State, s.cfg.homing = false → withoutSwitch s = withoutSwitch s' →
    AgreeUpTo withoutSwitch (step s) (step s')

/-- R194, its bounded part: from `HomingQuitting` at `pos = −n`, with no command, no change of the switch and a tick source
that advances by `F` before each of `n` turns, one more turn ends in `Stopped` at `pos = 0` with `HomingDone` and the success
tone. The agenda that paces the ticks and the turns is the model's (log entry 6). -/
def Obligations.HomingQuittingReachesHome : Prop :=
  ∀ (n : Nat) (s : State), Inv s → s.mode = .homingQuitting → s.fifo = [] → s.pos.toInt = -(n : Int) →
    s.agenda = paced s.cfg.fixedTicksPerStep n →
    s.stepCount.toNat * s.cfg.fixedTicksPerStep ≤ s.tickNow.toNat →
    s.tickNow.toNat + n * s.cfg.fixedTicksPerStep < 4294967296 →
    ∃ t, runSteps (2 * n + 1) s = .next t ∧ t.mode = .stopped ∧ t.pos = 0 ∧
      t.events = [.homingDone] ∧ t.outputs = [.tickRst, .led .solid, .tone .success]
end

