-- ==== Sys2Proof/Laws/Flags.lean ====
section
/-! SUPPORT. Each predicate of spec/10_state.md R34, and the tests beside them, as the proposition it decides. -/

namespace Sys2Proof.Machine

@[simp] theorem swRise_iff (b : Bool) (s : State) : swRise b s = true ↔ s.swPrev = false ∧ b = true := by
  simp [swRise]

@[simp] theorem swFall_iff (b : Bool) (s : State) : swFall b s = true ↔ s.swPrev = true ∧ b = false := by
  simp [swFall]

@[simp] theorem movingForward_iff (s : State) : movingForward s = true ↔ s.direction = .forward := by
  simp [movingForward]

@[simp] theorem overLimit_iff (s : State) : overLimit s = true ↔ (s.cfg.travelLimit : Int) < s.pos.toInt := by
  simp [overLimit]

@[simp] theorem homeReached_iff (s : State) : homeReached s = true ↔ 0 ≤ s.pos.toInt := by
  simp [homeReached]

@[simp] theorem fifoFull_iff (s : State) : fifoFull s = true ↔ s.cfg.cmdDepth ≤ s.fifo.length := by
  simp [fifoFull]

@[simp] theorem fifoFull_false_iff (s : State) : fifoFull s = false ↔ s.fifo.length < s.cfg.cmdDepth := by
  simp [fifoFull]

/-- The enabling condition of R181. -/
theorem enabled_iff (s : State) : enabled s = true ↔ s.fifo ≠ [] ∨ s.mode ≠ .stopped := by
  simp [enabled]

end Sys2Proof.Machine
end

