-- ==== Sys2Proof/Laws/State.lean ====
section
/-! SUPPORT. What each state operation does to each field, one lemma a field, so that later proofs never unfold the
operation: by rfl where the operation is a record update, by its two cases where it tests the state. -/

namespace Sys2Proof.Machine

/-! ### emit (R15, R102) -/

@[simp] theorem emit_cfg (o : Output) (s : State) : (emit o s).cfg = s.cfg := rfl
@[simp] theorem emit_phase (o : Output) (s : State) : (emit o s).phase = s.phase := rfl
@[simp] theorem emit_pos (o : Output) (s : State) : (emit o s).pos = s.pos := rfl
@[simp] theorem emit_coil (o : Output) (s : State) : (emit o s).coil = s.coil := rfl
@[simp] theorem emit_ddir (o : Output) (s : State) : (emit o s).ddir = s.ddir := rfl
@[simp] theorem emit_stepCount (o : Output) (s : State) : (emit o s).stepCount = s.stepCount := rfl
@[simp] theorem emit_tickOrigin (o : Output) (s : State) : (emit o s).tickOrigin = s.tickOrigin := rfl
@[simp] theorem emit_mode (o : Output) (s : State) : (emit o s).mode = s.mode := rfl
@[simp] theorem emit_direction (o : Output) (s : State) : (emit o s).direction = s.direction := rfl
@[simp] theorem emit_swPrev (o : Output) (s : State) : (emit o s).swPrev = s.swPrev := rfl
@[simp] theorem emit_fifo (o : Output) (s : State) : (emit o s).fifo = s.fifo := rfl
@[simp] theorem emit_tickNow (o : Output) (s : State) : (emit o s).tickNow = s.tickNow := rfl
@[simp] theorem emit_sw (o : Output) (s : State) : (emit o s).sw = s.sw := rfl
@[simp] theorem emit_outputs (o : Output) (s : State) : (emit o s).outputs = s.outputs ++ [o] := rfl
@[simp] theorem emit_events (o : Output) (s : State) : (emit o s).events = s.events := rfl
@[simp] theorem emit_seqPort (o : Output) (s : State) : (emit o s).seqPort = s.seqPort := rfl
@[simp] theorem emit_agenda (o : Output) (s : State) : (emit o s).agenda = s.agenda := rfl

@[simp] theorem emit_led_ledBox (r : Led) (s : State) : (emit (.led r) s).ledBox = some r := rfl
@[simp] theorem emit_led_toneBox (r : Led) (s : State) : (emit (.led r) s).toneBox = s.toneBox := rfl
@[simp] theorem emit_tone_ledBox (r : Tone) (s : State) : (emit (.tone r) s).ledBox = s.ledBox := rfl
@[simp] theorem emit_tone_toneBox (r : Tone) (s : State) : (emit (.tone r) s).toneBox = some r := rfl
@[simp] theorem emit_diag_ledBox (c : Token) (s : State) : (emit (.diag c) s).ledBox = s.ledBox := rfl
@[simp] theorem emit_diag_toneBox (c : Token) (s : State) : (emit (.diag c) s).toneBox = s.toneBox := rfl
@[simp] theorem emit_tickRst_ledBox (s : State) : (emit .tickRst s).ledBox = s.ledBox := rfl
@[simp] theorem emit_tickRst_toneBox (s : State) : (emit .tickRst s).toneBox = s.toneBox := rfl

/-! ### raise (R15) -/

@[simp] theorem raiseEvent_cfg (e : Event) (s : State) : (raiseEvent e s).cfg = s.cfg := rfl
@[simp] theorem raiseEvent_phase (e : Event) (s : State) : (raiseEvent e s).phase = s.phase := rfl
@[simp] theorem raiseEvent_pos (e : Event) (s : State) : (raiseEvent e s).pos = s.pos := rfl
@[simp] theorem raiseEvent_coil (e : Event) (s : State) : (raiseEvent e s).coil = s.coil := rfl
@[simp] theorem raiseEvent_ddir (e : Event) (s : State) : (raiseEvent e s).ddir = s.ddir := rfl
@[simp] theorem raiseEvent_stepCount (e : Event) (s : State) : (raiseEvent e s).stepCount = s.stepCount := rfl
@[simp] theorem raiseEvent_tickOrigin (e : Event) (s : State) : (raiseEvent e s).tickOrigin = s.tickOrigin := rfl
@[simp] theorem raiseEvent_mode (e : Event) (s : State) : (raiseEvent e s).mode = s.mode := rfl
@[simp] theorem raiseEvent_direction (e : Event) (s : State) : (raiseEvent e s).direction = s.direction := rfl
@[simp] theorem raiseEvent_swPrev (e : Event) (s : State) : (raiseEvent e s).swPrev = s.swPrev := rfl
@[simp] theorem raiseEvent_fifo (e : Event) (s : State) : (raiseEvent e s).fifo = s.fifo := rfl
@[simp] theorem raiseEvent_tickNow (e : Event) (s : State) : (raiseEvent e s).tickNow = s.tickNow := rfl
@[simp] theorem raiseEvent_sw (e : Event) (s : State) : (raiseEvent e s).sw = s.sw := rfl
@[simp] theorem raiseEvent_ledBox (e : Event) (s : State) : (raiseEvent e s).ledBox = s.ledBox := rfl
@[simp] theorem raiseEvent_toneBox (e : Event) (s : State) : (raiseEvent e s).toneBox = s.toneBox := rfl
@[simp] theorem raiseEvent_outputs (e : Event) (s : State) : (raiseEvent e s).outputs = s.outputs := rfl
@[simp] theorem raiseEvent_events (e : Event) (s : State) : (raiseEvent e s).events = s.events ++ [e] := rfl
@[simp] theorem raiseEvent_seqPort (e : Event) (s : State) : (raiseEvent e s).seqPort = s.seqPort := rfl
@[simp] theorem raiseEvent_agenda (e : Event) (s : State) : (raiseEvent e s).agenda = s.agenda := rfl

/-! ### the records of a step -/

@[simp] theorem clearRecords_cfg (s : State) : (clearRecords s).cfg = s.cfg := rfl
@[simp] theorem clearRecords_phase (s : State) : (clearRecords s).phase = s.phase := rfl
@[simp] theorem clearRecords_pos (s : State) : (clearRecords s).pos = s.pos := rfl
@[simp] theorem clearRecords_coil (s : State) : (clearRecords s).coil = s.coil := rfl
@[simp] theorem clearRecords_ddir (s : State) : (clearRecords s).ddir = s.ddir := rfl
@[simp] theorem clearRecords_stepCount (s : State) : (clearRecords s).stepCount = s.stepCount := rfl
@[simp] theorem clearRecords_tickOrigin (s : State) : (clearRecords s).tickOrigin = s.tickOrigin := rfl
@[simp] theorem clearRecords_mode (s : State) : (clearRecords s).mode = s.mode := rfl
@[simp] theorem clearRecords_direction (s : State) : (clearRecords s).direction = s.direction := rfl
@[simp] theorem clearRecords_swPrev (s : State) : (clearRecords s).swPrev = s.swPrev := rfl
@[simp] theorem clearRecords_fifo (s : State) : (clearRecords s).fifo = s.fifo := rfl
@[simp] theorem clearRecords_tickNow (s : State) : (clearRecords s).tickNow = s.tickNow := rfl
@[simp] theorem clearRecords_sw (s : State) : (clearRecords s).sw = s.sw := rfl
@[simp] theorem clearRecords_ledBox (s : State) : (clearRecords s).ledBox = s.ledBox := rfl
@[simp] theorem clearRecords_toneBox (s : State) : (clearRecords s).toneBox = s.toneBox := rfl
@[simp] theorem clearRecords_outputs (s : State) : (clearRecords s).outputs = [] := rfl
@[simp] theorem clearRecords_events (s : State) : (clearRecords s).events = [] := rfl
@[simp] theorem clearRecords_seqPort (s : State) : (clearRecords s).seqPort = s.seqPort := rfl
@[simp] theorem clearRecords_agenda (s : State) : (clearRecords s).agenda = s.agenda := rfl

/-! ### TickReset (R252) -/

@[simp] theorem tickReset_cfg (s : State) : (tickReset s).cfg = s.cfg := rfl
@[simp] theorem tickReset_phase (s : State) : (tickReset s).phase = s.phase := rfl
@[simp] theorem tickReset_pos (s : State) : (tickReset s).pos = s.pos := rfl
@[simp] theorem tickReset_coil (s : State) : (tickReset s).coil = s.coil := rfl
@[simp] theorem tickReset_ddir (s : State) : (tickReset s).ddir = s.ddir := rfl
@[simp] theorem tickReset_stepCount (s : State) : (tickReset s).stepCount = s.stepCount := rfl
@[simp] theorem tickReset_tickOrigin (s : State) : (tickReset s).tickOrigin = s.tickOrigin := rfl
@[simp] theorem tickReset_mode (s : State) : (tickReset s).mode = s.mode := rfl
@[simp] theorem tickReset_direction (s : State) : (tickReset s).direction = s.direction := rfl
@[simp] theorem tickReset_swPrev (s : State) : (tickReset s).swPrev = s.swPrev := rfl
@[simp] theorem tickReset_fifo (s : State) : (tickReset s).fifo = s.fifo := rfl
@[simp] theorem tickReset_tickNow (s : State) : (tickReset s).tickNow = 0 := rfl
@[simp] theorem tickReset_sw (s : State) : (tickReset s).sw = s.sw := rfl
@[simp] theorem tickReset_ledBox (s : State) : (tickReset s).ledBox = s.ledBox := rfl
@[simp] theorem tickReset_toneBox (s : State) : (tickReset s).toneBox = s.toneBox := rfl
@[simp] theorem tickReset_outputs (s : State) : (tickReset s).outputs = s.outputs ++ [.tickRst] := rfl
@[simp] theorem tickReset_events (s : State) : (tickReset s).events = s.events := rfl
@[simp] theorem tickReset_seqPort (s : State) : (tickReset s).seqPort = s.seqPort := rfl
@[simp] theorem tickReset_agenda (s : State) : (tickReset s).agenda = s.agenda := rfl

/-! ### stop() (R124) -/

@[simp] theorem ssqStop_cfg (s : State) : (ssqStop s).cfg = s.cfg := rfl
@[simp] theorem ssqStop_phase (s : State) : (ssqStop s).phase = s.phase := rfl
@[simp] theorem ssqStop_pos (s : State) : (ssqStop s).pos = s.pos := rfl
@[simp] theorem ssqStop_coil (s : State) : (ssqStop s).coil = 0 := rfl
@[simp] theorem ssqStop_ddir (s : State) : (ssqStop s).ddir = s.ddir := rfl
@[simp] theorem ssqStop_stepCount (s : State) : (ssqStop s).stepCount = s.stepCount := rfl
@[simp] theorem ssqStop_tickOrigin (s : State) : (ssqStop s).tickOrigin = s.tickOrigin := rfl
@[simp] theorem ssqStop_mode (s : State) : (ssqStop s).mode = s.mode := rfl
@[simp] theorem ssqStop_direction (s : State) : (ssqStop s).direction = s.direction := rfl
@[simp] theorem ssqStop_swPrev (s : State) : (ssqStop s).swPrev = s.swPrev := rfl
@[simp] theorem ssqStop_fifo (s : State) : (ssqStop s).fifo = s.fifo := rfl
@[simp] theorem ssqStop_tickNow (s : State) : (ssqStop s).tickNow = s.tickNow := rfl
@[simp] theorem ssqStop_sw (s : State) : (ssqStop s).sw = s.sw := rfl
@[simp] theorem ssqStop_ledBox (s : State) : (ssqStop s).ledBox = s.ledBox := rfl
@[simp] theorem ssqStop_toneBox (s : State) : (ssqStop s).toneBox = s.toneBox := rfl
@[simp] theorem ssqStop_outputs (s : State) : (ssqStop s).outputs = s.outputs := rfl
@[simp] theorem ssqStop_events (s : State) : (ssqStop s).events = s.events := rfl
@[simp] theorem ssqStop_seqPort (s : State) : (ssqStop s).seqPort = s.seqPort := rfl
@[simp] theorem ssqStop_agenda (s : State) : (ssqStop s).agenda = s.agenda := rfl

/-! ### a push that has room (R68, R69) -/

@[simp] theorem fifoAppend_cfg (c : Token) (s : State) : (fifoAppend c s).cfg = s.cfg := rfl
@[simp] theorem fifoAppend_phase (c : Token) (s : State) : (fifoAppend c s).phase = s.phase := rfl
@[simp] theorem fifoAppend_pos (c : Token) (s : State) : (fifoAppend c s).pos = s.pos := rfl
@[simp] theorem fifoAppend_coil (c : Token) (s : State) : (fifoAppend c s).coil = s.coil := rfl
@[simp] theorem fifoAppend_ddir (c : Token) (s : State) : (fifoAppend c s).ddir = s.ddir := rfl
@[simp] theorem fifoAppend_stepCount (c : Token) (s : State) : (fifoAppend c s).stepCount = s.stepCount := rfl
@[simp] theorem fifoAppend_tickOrigin (c : Token) (s : State) : (fifoAppend c s).tickOrigin = s.tickOrigin := rfl
@[simp] theorem fifoAppend_mode (c : Token) (s : State) : (fifoAppend c s).mode = s.mode := rfl
@[simp] theorem fifoAppend_direction (c : Token) (s : State) : (fifoAppend c s).direction = s.direction := rfl
@[simp] theorem fifoAppend_swPrev (c : Token) (s : State) : (fifoAppend c s).swPrev = s.swPrev := rfl
@[simp] theorem fifoAppend_fifo (c : Token) (s : State) : (fifoAppend c s).fifo = s.fifo ++ [c] := rfl
@[simp] theorem fifoAppend_tickNow (c : Token) (s : State) : (fifoAppend c s).tickNow = s.tickNow := rfl
@[simp] theorem fifoAppend_sw (c : Token) (s : State) : (fifoAppend c s).sw = s.sw := rfl
@[simp] theorem fifoAppend_ledBox (c : Token) (s : State) : (fifoAppend c s).ledBox = s.ledBox := rfl
@[simp] theorem fifoAppend_toneBox (c : Token) (s : State) : (fifoAppend c s).toneBox = s.toneBox := rfl
@[simp] theorem fifoAppend_outputs (c : Token) (s : State) : (fifoAppend c s).outputs = s.outputs := rfl
@[simp] theorem fifoAppend_events (c : Token) (s : State) : (fifoAppend c s).events = s.events := rfl
@[simp] theorem fifoAppend_seqPort (c : Token) (s : State) : (fifoAppend c s).seqPort = s.seqPort := rfl
@[simp] theorem fifoAppend_agenda (c : Token) (s : State) : (fifoAppend c s).agenda = s.agenda := rfl

/-! ### the end of the iteration (R188) -/

@[simp] theorem endIteration_cfg (b : Bool) (s : State) : (endIteration b s).cfg = s.cfg := rfl
@[simp] theorem endIteration_phase (b : Bool) (s : State) : (endIteration b s).phase = s.phase := rfl
@[simp] theorem endIteration_pos (b : Bool) (s : State) : (endIteration b s).pos = s.pos := rfl
@[simp] theorem endIteration_coil (b : Bool) (s : State) : (endIteration b s).coil = s.coil := rfl
@[simp] theorem endIteration_ddir (b : Bool) (s : State) : (endIteration b s).ddir = s.ddir := rfl
@[simp] theorem endIteration_stepCount (b : Bool) (s : State) : (endIteration b s).stepCount = s.stepCount := rfl
@[simp] theorem endIteration_tickOrigin (b : Bool) (s : State) : (endIteration b s).tickOrigin = s.tickOrigin := rfl
@[simp] theorem endIteration_mode (b : Bool) (s : State) : (endIteration b s).mode = s.mode := rfl
@[simp] theorem endIteration_direction (b : Bool) (s : State) : (endIteration b s).direction = s.direction := rfl
@[simp] theorem endIteration_swPrev (b : Bool) (s : State) : (endIteration b s).swPrev = b := rfl
@[simp] theorem endIteration_fifo (b : Bool) (s : State) : (endIteration b s).fifo = s.fifo := rfl
@[simp] theorem endIteration_tickNow (b : Bool) (s : State) : (endIteration b s).tickNow = s.tickNow := rfl
@[simp] theorem endIteration_sw (b : Bool) (s : State) : (endIteration b s).sw = s.sw := rfl
@[simp] theorem endIteration_ledBox (b : Bool) (s : State) : (endIteration b s).ledBox = s.ledBox := rfl
@[simp] theorem endIteration_toneBox (b : Bool) (s : State) : (endIteration b s).toneBox = s.toneBox := rfl
@[simp] theorem endIteration_outputs (b : Bool) (s : State) : (endIteration b s).outputs = s.outputs := rfl
@[simp] theorem endIteration_events (b : Bool) (s : State) : (endIteration b s).events = s.events := rfl
@[simp] theorem endIteration_seqPort (b : Bool) (s : State) : (endIteration b s).seqPort = s.seqPort := rfl
@[simp] theorem endIteration_agenda (b : Bool) (s : State) : (endIteration b s).agenda = s.agenda := rfl

/-! ### InvalidToken (R216, R231) -/

@[simp] theorem invalidToken_cfg (c : Token) (s : State) : (invalidToken c s).cfg = s.cfg := rfl
@[simp] theorem invalidToken_phase (c : Token) (s : State) : (invalidToken c s).phase = s.phase := rfl
@[simp] theorem invalidToken_pos (c : Token) (s : State) : (invalidToken c s).pos = s.pos := rfl
@[simp] theorem invalidToken_coil (c : Token) (s : State) : (invalidToken c s).coil = s.coil := rfl
@[simp] theorem invalidToken_ddir (c : Token) (s : State) : (invalidToken c s).ddir = s.ddir := rfl
@[simp] theorem invalidToken_stepCount (c : Token) (s : State) : (invalidToken c s).stepCount = s.stepCount := rfl
@[simp] theorem invalidToken_tickOrigin (c : Token) (s : State) : (invalidToken c s).tickOrigin = s.tickOrigin := rfl
@[simp] theorem invalidToken_mode (c : Token) (s : State) : (invalidToken c s).mode = s.mode := rfl
@[simp] theorem invalidToken_direction (c : Token) (s : State) : (invalidToken c s).direction = s.direction := rfl
@[simp] theorem invalidToken_swPrev (c : Token) (s : State) : (invalidToken c s).swPrev = s.swPrev := rfl
@[simp] theorem invalidToken_fifo (c : Token) (s : State) : (invalidToken c s).fifo = s.fifo := rfl
@[simp] theorem invalidToken_tickNow (c : Token) (s : State) : (invalidToken c s).tickNow = s.tickNow := rfl
@[simp] theorem invalidToken_sw (c : Token) (s : State) : (invalidToken c s).sw = s.sw := rfl
@[simp] theorem invalidToken_ledBox (c : Token) (s : State) : (invalidToken c s).ledBox = s.ledBox := rfl
@[simp] theorem invalidToken_toneBox (c : Token) (s : State) : (invalidToken c s).toneBox = s.toneBox := rfl
@[simp] theorem invalidToken_outputs (c : Token) (s : State) : (invalidToken c s).outputs = s.outputs ++ [.diag c] := rfl
@[simp] theorem invalidToken_events (c : Token) (s : State) : (invalidToken c s).events = s.events ++ [.invalidToken c] := rfl
@[simp] theorem invalidToken_seqPort (c : Token) (s : State) : (invalidToken c s).seqPort = s.seqPort := rfl
@[simp] theorem invalidToken_agenda (c : Token) (s : State) : (invalidToken c s).agenda = s.agenda := rfl

/-! ### Transition: what it never writes, and the mode (R171, R174) -/

@[simp] theorem transition_cfg (m : Mode) (s : State) : (transition m s).cfg = s.cfg := by
  unfold transition
  split <;> simp_all
@[simp] theorem transition_phase (m : Mode) (s : State) : (transition m s).phase = s.phase := by
  unfold transition
  split <;> simp_all
@[simp] theorem transition_pos (m : Mode) (s : State) : (transition m s).pos = s.pos := by
  unfold transition
  split <;> simp_all
@[simp] theorem transition_ddir (m : Mode) (s : State) : (transition m s).ddir = s.ddir := by
  unfold transition
  split <;> simp_all
@[simp] theorem transition_mode (m : Mode) (s : State) : (transition m s).mode = m := by
  unfold transition
  split <;> simp_all
@[simp] theorem transition_swPrev (m : Mode) (s : State) : (transition m s).swPrev = s.swPrev := by
  unfold transition
  split <;> simp_all
@[simp] theorem transition_fifo (m : Mode) (s : State) : (transition m s).fifo = s.fifo := by
  unfold transition
  split <;> simp_all
@[simp] theorem transition_sw (m : Mode) (s : State) : (transition m s).sw = s.sw := by
  unfold transition
  split <;> simp_all
@[simp] theorem transition_toneBox (m : Mode) (s : State) : (transition m s).toneBox = s.toneBox := by
  unfold transition
  split <;> simp_all
@[simp] theorem transition_events (m : Mode) (s : State) : (transition m s).events = s.events := by
  unfold transition
  split <;> simp_all
@[simp] theorem transition_seqPort (m : Mode) (s : State) : (transition m s).seqPort = s.seqPort := by
  unfold transition
  split <;> simp_all
@[simp] theorem transition_agenda (m : Mode) (s : State) : (transition m s).agenda = s.agenda := by
  unfold transition
  split <;> simp_all

/-! ### the forced transition (R245) -/

@[simp] theorem forceStop_cfg (e : Event) (t : Tone) (s : State) : (forceStop e t s).cfg = s.cfg := by
  simp [forceStop]
@[simp] theorem forceStop_phase (e : Event) (t : Tone) (s : State) : (forceStop e t s).phase = s.phase := by
  simp [forceStop]
@[simp] theorem forceStop_pos (e : Event) (t : Tone) (s : State) : (forceStop e t s).pos = s.pos := by
  simp [forceStop]
@[simp] theorem forceStop_ddir (e : Event) (t : Tone) (s : State) : (forceStop e t s).ddir = s.ddir := by
  simp [forceStop]
@[simp] theorem forceStop_mode (e : Event) (t : Tone) (s : State) : (forceStop e t s).mode = .stopped := by
  simp [forceStop]
@[simp] theorem forceStop_swPrev (e : Event) (t : Tone) (s : State) : (forceStop e t s).swPrev = s.swPrev := by
  simp [forceStop]
@[simp] theorem forceStop_fifo (e : Event) (t : Tone) (s : State) : (forceStop e t s).fifo = s.fifo := by
  simp [forceStop]
@[simp] theorem forceStop_sw (e : Event) (t : Tone) (s : State) : (forceStop e t s).sw = s.sw := by
  simp [forceStop]
@[simp] theorem forceStop_toneBox (e : Event) (t : Tone) (s : State) : (forceStop e t s).toneBox = some t := by
  simp [forceStop]
@[simp] theorem forceStop_events (e : Event) (t : Tone) (s : State) : (forceStop e t s).events = s.events ++ [e] := by
  simp [forceStop]
@[simp] theorem forceStop_seqPort (e : Event) (t : Tone) (s : State) : (forceStop e t s).seqPort = s.seqPort := by
  simp [forceStop]
@[simp] theorem forceStop_agenda (e : Event) (t : Tone) (s : State) : (forceStop e t s).agenda = s.agenda := by
  simp [forceStop]

end Sys2Proof.Machine
end

