-- ==== Sys2Proof/Laws/Ops.lean ====
section
/-! SUPPORT. One lemma per shared operation that says everything it can do, which proofs cite instead of unfolding it. -/

namespace Sys2Proof.Machine

/-! ### andThen -/

@[simp] theorem andThen_next (s : State) (f : State → Result) : andThen (.next s) f = f s := rfl
@[simp] theorem andThen_fault (r : Fault) (f : State → Result) : andThen (.fault r) f = .fault r := rfl
@[simp] theorem andThen_refused (r : Refusal) (f : State → Result) : andThen (.refused r) f = .refused r := rfl

/-- A sequence answers a next state exactly when both parts do. -/
theorem andThen_eq_next {o : Result} {f : State → Result} {t : State} :
    andThen o f = .next t ↔ ∃ s, o = .next s ∧ f s = .next t := by
  cases o <;> simp

/-- A sequence faults in its first part, or in its second. -/
theorem andThen_eq_fault {o : Result} {f : State → Result} {r : Fault} :
    andThen o f = .fault r ↔ o = .fault r ∨ ∃ s, o = .next s ∧ f s = .fault r := by
  cases o <;> simp

/-- A sequence is refused in its first part, or in its second. -/
theorem andThen_eq_refused {o : Result} {f : State → Result} {r : Refusal} :
    andThen o f = .refused r ↔ o = .refused r ∨ ∃ s, o = .next s ∧ f s = .refused r := by
  cases o <;> simp

/-! ### The coil ROM -/

/-- The phase field of a ROM address. -/
theorem romAddress_phase (t : Topology) (p : BitVec 3) : (romAddress t p).extractLsb' 0 3 = p := by
  revert p
  cases t <;> decide

/-- The topology bit of a ROM address. -/
theorem romAddress_topology (t : Topology) (p : BitVec 3) : (romAddress t p).getLsbD 3 = (t == .unipolar) := by
  revert p
  cases t <;> decide

/-- A read at `{t, phase}` is the row of the table that `t` selects. -/
theorem coilRomRead_romAddress (c : Config) (t : Topology) (p : BitVec 3) :
    coilRomRead c (romAddress t p) =
      tableRow (match t with | .bipolar => c.bipolarTable | .unipolar => c.unipolarTable) p := by
  unfold coilRomRead
  rw [romAddress_phase, romAddress_topology]
  cases t <;> rfl

/-! ### The StepSequencer -/

/-- The state after `step(d)` when `pos` stays in its range. -/
def steppedState (d : Int) (s : State) : State :=
  { s with
    phase := BitVec.ofInt 3 ((s.phase.toNat : Int) + d * signValue s.ddir)
    coil := coilRomRead s.cfg (romAddress s.cfg.topology (BitVec.ofInt 3 ((s.phase.toNat : Int) + d * signValue s.ddir)))
    pos := BitVec.ofInt 32 (s.pos.toInt + d) }

/-- `step(d)` answers a next state exactly in range, and then that state. -/
theorem ssqStep_of_range {d : Int} {s : State} (h : s.pos.toInt + d ≤ 2147483647) (h' : -2147483648 ≤ s.pos.toInt + d) :
    ssqStep d s = .next (steppedState d s) := by
  unfold ssqStep
  rw [if_neg (by omega)]
  rfl

/-- `step(d)` faults out of range. -/
theorem ssqStep_out_of_range {d : Int} {s : State} (h : 2147483647 < s.pos.toInt + d ∨ s.pos.toInt + d < -2147483648) :
    ssqStep d s = .fault .posOverflow := by
  unfold ssqStep
  rw [if_pos h]

/-- Everything `step(d)` can do. -/
theorem ssqStep_cases (d : Int) (s : State) :
    (ssqStep d s = .next (steppedState d s) ∧ s.pos.toInt + d ≤ 2147483647 ∧ -2147483648 ≤ s.pos.toInt + d) ∨
    (ssqStep d s = .fault .posOverflow ∧ (2147483647 < s.pos.toInt + d ∨ s.pos.toInt + d < -2147483648)) := by
  by_cases h : 2147483647 < s.pos.toInt + d ∨ s.pos.toInt + d < -2147483648
  · exact .inr ⟨ssqStep_out_of_range h, h⟩
  · exact .inl ⟨ssqStep_of_range (by omega) (by omega), by omega, by omega⟩

/-- The 32 bit register holds a value in range exactly. -/
theorem toInt_ofInt_of_range {z : Int} (h : z ≤ 2147483647) (h' : -2147483648 ≤ z) : (BitVec.ofInt 32 z).toInt = z := by
  rw [BitVec.toInt_ofInt]
  exact Int.bmod_eq_of_le (by omega) (by omega)

/-- The register's value is in its range. -/
theorem pos_range (v : Word) : -2147483648 ≤ v.toInt ∧ v.toInt ≤ 2147483647 := by
  have h1 := BitVec.le_toInt v
  have h2 := BitVec.toInt_lt (x := v)
  norm_num at h1 h2
  omega

/-- The phase after an advance, as the spec's mathematical residue (R12, R125). -/
theorem phase_advance (p : BitVec 3) (z : Int) :
    ((BitVec.ofInt 3 ((p.toNat : Int) + z)).toNat : Int) = ((p.toNat : Int) + z) % 8 := by
  rw [BitVec.toNat_ofInt]
  omega

/-! ### Transition -/

/-- The state after a transition to another mode. -/
def transitioned (m : Mode) (s : State) : State :=
  { s with
    mode := m
    direction := canon m
    tickOrigin := 0
    tickNow := 0
    stepCount := 0
    coil := 0
    ledBox := some (ledOf m)
    outputs := s.outputs ++ [.tickRst, .led (ledOf m)] }

/-- Re-entry is inert (R173). -/
theorem transition_self {m : Mode} {s : State} (h : m = s.mode) : transition m s = s := by
  unfold transition
  rw [if_pos h]

/-- A change of mode writes exactly what R171 lists. -/
theorem transition_of_ne {m : Mode} {s : State} (h : m ≠ s.mode) : transition m s = transitioned m s := by
  unfold transition
  rw [if_neg h]
  simp [transitioned, emit, tickReset, ssqStop]

/-- A forced stop from another mode: the transition to `Stopped`, then the event and the tone (R245). -/
theorem forceStop_of_ne {e : Event} {t : Tone} {s : State} (h : s.mode ≠ .stopped) :
    forceStop e t s = { transitioned .stopped s with
      toneBox := some t
      events := s.events ++ [e]
      outputs := s.outputs ++ [.tickRst, .led .solid, .tone t] } := by
  unfold forceStop
  rw [transition_of_ne (Ne.symm h)]
  simp [transitioned, emit, raiseEvent, ledOf]

/-! ### The tick source -/

/-- `TickAdvance(k)` within the range. -/
theorem tickAdvance_of_le {k : Nat} {s : State} (h : s.tickNow.toNat + k ≤ 4294967295) :
    tickAdvance k s = .next { s with tickNow := BitVec.ofNat 32 (s.tickNow.toNat + k) } := by
  unfold tickAdvance
  rw [if_neg (by omega)]

/-- `TickAdvance(k)` past the top. -/
theorem tickAdvance_of_gt {k : Nat} {s : State} (h : 4294967295 < s.tickNow.toNat + k) :
    tickAdvance k s = .fault .tickOverflow := by
  unfold tickAdvance
  rw [if_pos h]

end Sys2Proof.Machine
end

