-- ==== Sys2Proof/Laws/RateClock.lean ====
section
/-! SUPPORT. The RateClock: what each stage of the pipeline computes, and that no value leaves 64 bits (R149). -/

namespace Sys2Proof.Machine

/-- Stage P1 is exact: 2^32 − 1 gives 2^32, not 0 (R151). -/
theorem stageIndex_toNat (w : Word) : (stageIndex w).toNat = w.toNat + 1 := by
  have h := w.isLt
  simp [stageIndex]
  omega

/-- `NUM` in a legal configuration, as a number. -/
theorem rateNum_toNat {c : Config} (h : c.Legal) (k : RateClass) :
    (rateNum c k).toNat = match k with | .sidereal => c.ticksPerSiderealDay | .fast => c.fixedTicksPerStep := by
  obtain ⟨h1, h2, h3, h4, h5, -⟩ := h
  cases k <;> simp [rateNum] <;> omega

/-- `DEN` in a legal configuration, as a number. -/
theorem rateDen_toNat {c : Config} (h : c.Legal) (k : RateClass) :
    (rateDen c k).toNat = match k with | .sidereal => c.stepsForFullRotation | .fast => 1 := by
  obtain ⟨h1, h2, h3, h4, h5, -⟩ := h
  cases k
  · simp [rateDen]
    omega
  · simp [rateDen]

/-- Stage P2 is exact on the operands P1 gives (R149, R152). -/
theorem stageMultiply_toNat {n1 : Wide} {num : Word} (h : n1.toNat ≤ 4294967296) :
    (stageMultiply n1 num).toNat = n1.toNat * num.toNat := by
  have hn := num.isLt
  have hle : n1.toNat * num.toNat ≤ 4294967296 * 4294967295 := Nat.mul_le_mul h (by omega)
  have hnum : num.toNat % 18446744073709551616 = num.toNat := Nat.mod_eq_of_lt (by omega)
  simp [stageMultiply, BitVec.toNat_mul]
  omega

/-- Stage P3 is the floor of the quotient (R153). -/
theorem stageDivide_toNat (prod : Wide) (den : Word) : (stageDivide prod den).toNat = prod.toNat / den.toNat := by
  have hd := den.isLt
  have hden : den.toNat % 18446744073709551616 = den.toNat := Nat.mod_eq_of_lt (by omega)
  simp [stageDivide, BitVec.toNat_udiv, hden]

/-- Stage P4 is the unsigned comparison (R154). -/
theorem stageCompare_iff (now : Word) (quot : Wide) : stageCompare now quot = true ↔ quot.toNat ≤ now.toNat := by
  have hn := now.isLt
  have hnow : now.toNat % 18446744073709551616 = now.toNat := Nat.mod_eq_of_lt (by omega)
  simp [stageCompare, BitVec.le_def, hnow]

end Sys2Proof.Machine
end

