-- ==== Sys2Proof/Laws/Iteration.lean ====
section
/-! SUPPORT. What each of the six steps of an iteration can do, said once: inversion lemmas that proofs about a whole step cite
instead of unfolding the iteration. -/

namespace Sys2Proof.Machine

/-! ### The sequencer commands -/

theorem exec_stepFwd (s : State) : exec .stepFwd s = ssqStep 1 s := rfl
theorem exec_stepRev (s : State) : exec .stepRev s = ssqStep (-1) s := rfl
theorem exec_stepNull (s : State) : exec .stepNull s = ssqStep 0 s := rfl
theorem exec_stop (x : BitVec 2) (s : State) : exec (.stop x) s = .next (ssqStop s) := rfl

/-! ### Step 1 -/

/-- The state after `d`. -/
def toggled (s : State) : State :=
  emit (.tone (scaleOf (signFlip s.ddir))) { s with ddir := signFlip s.ddir }

/-- Everything a command token can do: a transition to a mode the build has and that is not a step's own target, a toggle,
or a diagnostic. It always completes. -/
theorem exec_token_cases (c : Token) (s : State) :
    (∃ m, (isHomingMode m = true → s.cfg.homing = true) ∧ m ≠ .homingFound ∧ m ≠ .homingQuitting ∧
      exec (decodeCmd s.cfg.homing c) s = .next (transition m s)) ∨
    exec (decodeCmd s.cfg.homing c) s = .next (toggled s) ∨
    exec (decodeCmd s.cfg.homing c) s = .next (invalidToken c s) := by
  unfold decodeCmd
  split_ifs with h1 h2 h3 h4 h5 h6
  · exact .inl ⟨.tracking, by simp [isHomingMode], by decide, by decide, rfl⟩
  · exact .inl ⟨.tracking, by simp [isHomingMode], by decide, by decide, rfl⟩
  · exact .inl ⟨.stopped, by simp [isHomingMode], by decide, by decide, rfl⟩
  · exact .inl ⟨.fastForward, by simp [isHomingMode], by decide, by decide, rfl⟩
  · exact .inr (.inl rfl)
  · exact .inl ⟨.rewind, fun _ => h6.2, by decide, by decide, by simp [exec, execCmdR, h6.2]⟩
  · exact .inr (.inr rfl)

/-- Everything step 1 can do. -/
theorem dispatchToken_cases (c : Option Token) (s : State) :
    dispatchToken c s = .next s ∧ c = none ∨
    (∃ m, (isHomingMode m = true → s.cfg.homing = true) ∧ m ≠ .homingFound ∧ m ≠ .homingQuitting ∧
      dispatchToken c s = .next (transition m s)) ∨
    dispatchToken c s = .next (toggled s) ∨
    ∃ x, dispatchToken c s = .next (invalidToken x s) := by
  cases c with
  | none => exact .inl ⟨rfl, rfl⟩
  | some t =>
    rcases exec_token_cases t s with h | h | h
    · exact .inr (.inl h)
    · exact .inr (.inr (.inl h))
    · exact .inr (.inr (.inr ⟨t, h⟩))

/-! ### Steps 2 to 5 -/

theorem switchFound_cases (b : Bool) (s : State) :
    (switchFound b s = transition .homingFound s ∧ s.cfg.homing = true ∧ s.mode = .rewind ∧ swRise b s = true) ∨
    (switchFound b s = s ∧ ¬(s.cfg.homing = true ∧ s.mode = .rewind ∧ swRise b s = true)) := by
  unfold switchFound
  split_ifs with h
  · exact .inl ⟨rfl, h⟩
  · exact .inr ⟨rfl, h⟩

theorem switchReleased_cases (b : Bool) (s : State) :
    (switchReleased b s = transition .homingQuitting { s with pos := negQuitOffset s.cfg } ∧
      s.cfg.homing = true ∧ s.mode = .homingFound ∧ swFall b s = true) ∨
    (switchReleased b s = s ∧ ¬(s.cfg.homing = true ∧ s.mode = .homingFound ∧ swFall b s = true)) := by
  unfold switchReleased
  split_ifs with h
  · exact .inl ⟨rfl, h⟩
  · exact .inr ⟨rfl, h⟩

theorem homingEnd_cases (s : State) :
    (homingEnd s = forceStop .homingDone .success s ∧
      s.cfg.homing = true ∧ s.mode = .homingQuitting ∧ homeReached s = true) ∨
    (homingEnd s = s ∧ ¬(s.cfg.homing = true ∧ s.mode = .homingQuitting ∧ homeReached s = true)) := by
  unfold homingEnd
  split_ifs with h
  · exact .inl ⟨rfl, h⟩
  · exact .inr ⟨rfl, h⟩

theorem travelStop_cases (s : State) :
    (travelStop s = forceStop .boundsViolation .alert s ∧
      s.cfg.boundsCheck = true ∧ movingForward s = true ∧ overLimit s = true) ∨
    (travelStop s = s ∧ ¬(s.cfg.boundsCheck = true ∧ movingForward s = true ∧ overLimit s = true)) := by
  unfold travelStop
  split_ifs with h
  · exact .inl ⟨rfl, h⟩
  · exact .inr ⟨rfl, h⟩

/-! ### Step 6 -/

/-- The word step 6 issues decodes to the step of the direction register. -/
theorem exec_seqStepWord (d : Direction) (s : State) :
    exec (decodeSeq (seqStepWord d)) s = ssqStep (directionValue d) s := by
  cases d <;> rfl

/-- Everything step 6 can do: nothing, or one step of the direction and one count. -/
theorem dueStep_cases (s : State) :
    (dueStep s = .next s ∧ ¬(s.mode ≠ .stopped ∧ due s = true)) ∨
    (s.mode ≠ .stopped ∧ due s = true ∧ dueStep s = andThen (ssqStep (directionValue s.direction) s) countStep) := by
  unfold dueStep
  split_ifs with h
  · exact .inr ⟨h.1, h.2, by rw [exec_seqStepWord]⟩
  · exact .inl ⟨rfl, h⟩

/-- With no step due, step 6 does nothing. -/
theorem dueStep_of_not_due {s : State} (h : due s = false) : dueStep s = .next s := by
  simp [dueStep, h]

/-- In `Stopped`, step 6 does nothing. -/
theorem dueStep_stopped {s : State} (h : s.mode = .stopped) : dueStep s = .next s := by
  simp [dueStep, h]

theorem countStep_cases (s : State) :
    (countStep s = .next { s with stepCount := s.stepCount + 1 } ∧ s.stepCount.toNat + 1 < 4294967296) ∨
    (countStep s = .fault .stepCountOverflow ∧ s.stepCount = 0xFFFFFFFF#32) := by
  unfold countStep
  split_ifs with h
  · exact .inr ⟨rfl, h⟩
  · refine .inl ⟨rfl, ?_⟩
    have := s.stepCount.isLt
    have hne : s.stepCount.toNat ≠ 4294967295 := fun e => h (BitVec.eq_of_toNat_eq (by simpa using e))
    omega

/-- A turn of the RCB answers only what an enabled iteration answers, or changes nothing. -/
theorem rcbTurn_cases (s : State) :
    (enabled s = true ∧ rcbTurn s = iteration s) ∨ (enabled s = false ∧ rcbTurn s = .next s) := by
  unfold rcbTurn
  cases h : enabled s
  · exact .inr ⟨rfl, by simp⟩
  · exact .inl ⟨rfl, by simp⟩

/-- The iteration as step 1 followed by the rest, on the FIFO's two forms. -/
theorem iteration_nil {s : State} (h : s.fifo = []) : iteration s = afterDispatch s.sw (clearRecords s) := by
  simp [iteration, fifoPop, h, dispatchToken, swRead]

theorem iteration_cons {s : State} {c : Token} {rest : List Token} (h : s.fifo = c :: rest) :
    iteration s = andThen (exec (decodeCmd s.cfg.homing c) { clearRecords s with fifo := rest }) (afterDispatch s.sw) := by
  simp [iteration, fifoPop, h, dispatchToken, swRead]

/-- Popping: the FIFO loses its head, and nothing else changes. -/
theorem fifoPop_eq (s : State) : fifoPop s = (s.fifo.head?, { s with fifo := s.fifo.tail }) := by
  obtain ⟨_, _, _, _, _, _, _, _, _, _, fifo, _, _, _, _, _, _, _, _⟩ := s
  cases fifo <;> rfl

/-- The iteration, whatever the FIFO holds: dispatch of the head on the state without it, then the rest. -/
theorem iteration_eq (s : State) :
    iteration s =
      andThen (dispatchToken s.fifo.head? { clearRecords s with fifo := s.fifo.tail }) (afterDispatch s.sw) := by
  simp only [iteration, fifoPop_eq]
  rfl

/-! ### The agents' turns -/

/-- A sequencer word at the port goes first. -/
theorem agentTurn_port {s : State} {w : SeqWord} (h : s.seqPort = some w) : agentTurn s = sequencerTurn w s := by
  simp only [agentTurn, h]

/-- With nothing at the port the agenda decides. -/
theorem agentTurn_agenda {s : State} (h : s.seqPort = none) :
    agentTurn s = match s.agenda with
      | [] => rcbTurn s
      | .wake :: rest => rcbTurn { s with agenda := rest }
      | .pushBlocking c :: rest =>
        if fifoFull s then rcbTurn s else .next (fifoAppend c (clearRecords { s with agenda := rest }))
      | .pushNonBlocking c :: rest => .next (fifoPushNonBlocking c (clearRecords { s with agenda := rest }))
      | .tickAdvance k :: rest => tickAdvance k (clearRecords { s with agenda := rest })
      | .setSwitch level :: rest => .next (clearRecords { s with sw := level, agenda := rest })
      | .boot :: rest => .next (bootState { s with agenda := rest }) := by
  obtain ⟨_, _, _, _, _, _, _, _, _, _, _, _, _, _, _, _, _, port, _⟩ := s
  subst h
  rfl

end Sys2Proof.Machine
end

