-- ==== Sys2Proof/Laws/PerInstr.lean ====
section
/-! SUPPORT. Statements about every instruction as syntax, made constructor by constructor. -/

namespace Sys2Proof.Laws.RoundTrip

/-- In every build that has the instruction, its own code decodes to it (R91, R92, R95, R97). -/
def Statement (i : Instr) : Prop := ∀ homing : Bool, i.wf homing = true → decode homing (encode i) = i

theorem cmdS : Statement .cmdS := fun _ _ => rfl
theorem cmdP : Statement .cmdP := fun _ _ => rfl
theorem cmdT : Statement .cmdT := fun _ _ => rfl
theorem cmdF : Statement .cmdF := fun _ _ => rfl
theorem cmdR : Statement .cmdR := fun homing h => by
  cases homing
  · cases h
  · rfl
theorem cmdD : Statement .cmdD := fun _ _ => rfl
theorem cmdUnrec (c : Token) : Statement (.cmdUnrec c) := fun homing h => by
  simp only [Instr.wf, inAlphabet, Bool.not_eq_true', Bool.or_eq_false_iff, Bool.and_eq_false_iff, beq_eq_false_iff_ne] at h
  obtain ⟨⟨⟨⟨⟨hs, hp⟩, ht⟩, hf⟩, hd⟩, hr⟩ := h
  have hr' : ¬(c = 0x72#8 ∧ homing = true) := by
    rintro ⟨rfl, rfl⟩
    rcases hr with h | h
    · cases h
    · exact h rfl
  simp only [decode, encode, decodeCmd, if_neg hs, if_neg hp, if_neg ht, if_neg hf, if_neg hd, if_neg hr']
theorem stepFwd : Statement .stepFwd := fun _ _ => rfl
theorem stepRev : Statement .stepRev := fun _ _ => rfl
theorem stepNull : Statement .stepNull := fun _ _ => rfl
theorem stop (x : BitVec 2) : Statement (.stop x) := fun homing _ => by
  revert homing x
  decide
/-- The reserved word is no instruction of any build (R97). -/
theorem seqReserved : Statement .seqReserved := fun _ h => by cases h

end Sys2Proof.Laws.RoundTrip
end

