-- ==== Sys2Proof/Tests/Slice0.lean ====
section
/-! SUPPORT. Tests with results from the spec's own vectors (spec/95_test_vectors.md), and for each statement with hypotheses a
witness that meets them all. -/

namespace Sys2Proof.Tests

open Sys2Proof Sys2Proof.Machine Sys2Proof.Statement

/-! ### WellFormed: each check refuses an ill-formed term -/

theorem test_wf_rewind_without_homing : Instr.wf false .cmdR = false := by decide
theorem test_wf_unrec_of_listed_token : Instr.wf true (.cmdUnrec 0x73#8) = false := by decide
theorem test_wf_unrec_of_r_with_homing :
    Instr.wf true (.cmdUnrec 0x72#8) = false ∧ Instr.wf false (.cmdUnrec 0x72#8) = true := by decide
theorem test_wf_reserved : Instr.wf true .seqReserved = false := by decide
theorem test_config_refuses :
    Config.Legal Config.profileA ∧ ∀ c ∈ [{ Config.profileA with stepsForFullRotation := 0 },
      { Config.profileA with fixedTicksPerStep := 0 }, { Config.profileA with ticksPerSiderealDay := 4294967296 },
      { Config.profileA with ticksPerSiderealDay := 566783 }, { Config.profileA with travelLimit := 2147483647 },
      { Config.profileA with quitOffset := 0 }, { Config.profileA with cmdDepth := 3 }], ¬ Config.Legal c := by decide

/-! ### Decoding: the words of R91 and R97, written out -/

theorem test_decode_cmdS : decode true (.cmd 0b01110011#8) = .cmdS := by decide
theorem test_decode_cmdP : decode true (.cmd 0b01110000#8) = .cmdP := by decide
theorem test_decode_cmdT : decode true (.cmd 0b01110100#8) = .cmdT := by decide
theorem test_decode_cmdF : decode true (.cmd 0b01100110#8) = .cmdF := by decide
theorem test_decode_cmdR : decode true (.cmd 0b01110010#8) = .cmdR := by decide
theorem test_decode_cmdR_without_homing : decode false (.cmd 0b01110010#8) = .cmdUnrec 0x72#8 := by decide
theorem test_decode_cmdD : decode true (.cmd 0b01100100#8) = .cmdD := by decide
theorem test_decode_cmdUnrec : decode true (.cmd 0b01111000#8) = .cmdUnrec 0x78#8 := by decide
theorem test_decode_stepFwd : decode true (.seq 0b001#3) = .stepFwd := by decide
theorem test_decode_stepRev : decode true (.seq 0b011#3) = .stepRev := by decide
theorem test_decode_stepNull : decode true (.seq 0b000#3) = .stepNull := by decide
theorem test_decode_stop : decode true (.seq 0b110#3) = .stop 0b10#2 := by decide
theorem test_decode_seqReserved : decode true (.seq 0b010#3) = .seqReserved := by decide
theorem test_decode_table_words :
    decodeTableWord 8 0x73 = some .cmdS ∧ decodeTableWord 8 0x70 = some .cmdP ∧ decodeTableWord 8 0x74 = some .cmdT ∧
    decodeTableWord 8 0x66 = some .cmdF ∧ decodeTableWord 8 0x72 = some .cmdR ∧ decodeTableWord 8 0x64 = some .cmdD ∧
    decodeTableWord 8 0x78 = some (.cmdUnrec 0x78#8) ∧
    decodeTableWord 8 1 = some .stepFwd ∧ decodeTableWord 3 3 = some .stepRev ∧ decodeTableWord 8 0 = some .stepNull ∧
    decodeTableWord 8 4 = some (.stop 0b00#2) ∧ decodeTableWord 8 2 = some .seqReserved := by decide

/-! ### Helpers -/

/-- The outcome is a next state that passes the test. -/
def nextIs (o : Result) (p : State → Bool) : Bool :=
  match o with
  | .next s => p s
  | _ => false

theorem nextIs_next {o : Result} {p : State → Bool} (h : nextIs o p = true) : ∃ t, o = .next t ∧ p t = true := by
  cases o with
  | next s => exact ⟨s, rfl, h⟩
  | fault r => cases h
  | refused r => cases h

def faultIs (o : Result) (f : Fault) : Bool :=
  match o with
  | .fault g => decide (g = f)
  | _ => false

def refusedIs (o : Result) (r : Refusal) : Bool :=
  match o with
  | .refused q => decide (q = r)
  | _ => false

/-- A configuration of 95_test_vectors.md: profile A, `F` = 100, unipolar, with the given homing and travel limit. -/
def build (homing : Bool) (limit : Nat) : Config :=
  { Config.profileA with homing := homing, travelLimit := limit }

/-- A state as 95_test_vectors.md writes it. -/
def scene (c : Config) (mode : Mode) (stepCount tickNow : Word) (phase : BitVec 3) (pos : Word) (coil : BitVec 4)
    (ddir : Sign) : State :=
  { State.resetWith c with
    mode := mode, direction := canon mode, stepCount := stepCount, tickNow := tickNow, phase := phase, pos := pos,
    coil := coil, ddir := ddir }

/-- The state tuple of 95_test_vectors.md. -/
structure View where
  mode : Mode
  direction : Direction
  stepCount : Word
  tickNow : Word
  phase : BitVec 3
  pos : Word
  coil : BitVec 4
  ddir : Sign
  deriving DecidableEq, Repr

def view (s : State) : View := ⟨s.mode, s.direction, s.stepCount, s.tickNow, s.phase, s.pos, s.coil, s.ddir⟩

/-- One turn of the RCB with the token `c` at the head of the FIFO. -/
def turn (c : Token) (s : State) : Result := step { s with fifo := [c] }

/-! ### Vectors of 2.1: the StepSequencer -/

theorem test_stepFwd_V2 :
    nextIs (exec .stepFwd (scene (build true 5) .stopped 0 0 7 41 0b1001 .plus)) (fun t =>
      decide ((t.phase, t.pos, t.coil) = (0, 42, 0b1000))) = true := by decide
theorem test_stepFwd_V3 :
    nextIs (exec .stepFwd (scene { build true 5 with topology := .bipolar } .stopped 0 0 0 0 0 .minus)) (fun t =>
      decide ((t.phase, t.pos, t.coil) = (7, 1, 0b1001))) = true := by decide
theorem test_stepRev_V5 :
    nextIs (exec .stepRev (scene (build true 5) .stopped 0 0 7 (BitVec.ofInt 32 (-5)) 0b1001 .minus)) (fun t =>
      decide ((t.phase, t.pos, t.coil) = (0, BitVec.ofInt 32 (-6), 0b1000))) = true := by decide
theorem test_stepRev_V10 :
    faultIs (exec .stepRev (scene (build true 5) .stopped 0 0 2 0x80000000#32 0b0100 .plus)) .posOverflow = true := by decide
theorem test_stepNull_V6 :
    nextIs (exec .stepNull (scene { build true 5 with topology := .bipolar } .stopped 0 0 3 9 0 .plus)) (fun t =>
      decide ((t.phase, t.pos, t.coil) = (3, 9, 0b0110))) = true := by decide
theorem test_stop_V8 :
    nextIs (exec (.stop 0b11#2) (scene (build true 5) .stopped 0 0 5 3 0b0101 .minus)) (fun t =>
      decide ((t.phase, t.pos, t.coil, t.ddir) = (5, 3, 0, .minus))) = true := by decide
theorem test_seqReserved_V11 : refusedIs (exec .seqReserved State.reset) .reservedSeq = true := by decide

/-! ### Vectors of 2.2: the RateClock -/

theorem test_ticksSidereal_V20 :
    ticksSidereal Config.profileA 3 = 14944 ∧ ticksSidereal Config.profileA 566785 = 2823426933 ∧
    ticksSidereal Config.profileA 4294967296 = 21395284529288 := by decide
theorem test_dueTime_V20 :
    (dueTime Config.profileA .sidereal 1).toNat = 9962 ∧
    (dueTime Config.profileA .sidereal 0xFFFFFFFF#32).toNat = 21395284529288 := by decide
theorem test_due_V23 :
    due (scene (build true 5) .tracking 0 4980 0 0 0 .plus) = false ∧
    due (scene (build true 5) .tracking 0 4981 0 0 0 .plus) = true ∧
    due (scene (build true 5) .tracking 862186 4294965458 0 0 0 .plus) = true ∧
    due (scene (build true 5) .tracking 862187 4294967295 0 0 0 .plus) = false := by decide
theorem test_due_V24 :
    due (scene (build true 5) .rewind 2 299 0 0 0 .plus) = false ∧
    due (scene (build true 5) .homingQuitting 2 300 0 0 0 .plus) = true := by decide

/-! ### Vectors of 2.3: the command tokens -/

theorem test_cmdS_V30 :
    nextIs (turn 0x73#8 (scene (build false 5) .stopped 0 77 0 0 0 .plus)) (fun t =>
      decide (view t = ⟨.tracking, .forward, 0, 0, 0, 0, 0, .plus⟩ ∧ t.outputs = [.tickRst, .led .slow])) = true := by decide
theorem test_cmdS_V44 :
    nextIs (turn 0x73#8 (scene (build false 2) .stopped 0 0 5 3 0 .minus)) (fun t =>
      decide (view t = ⟨.stopped, .none, 0, 0, 5, 3, 0, .minus⟩ ∧ t.events = [.boundsViolation] ∧
        t.outputs = [.tickRst, .led .slow, .tickRst, .led .solid, .tone .alert])) = true := by decide
theorem test_cmdP_V31 :
    nextIs (turn 0x70#8 (scene (build false 100) .fastForward 7 733 7 7 0b1001 .plus)) (fun t =>
      decide (view t = ⟨.tracking, .forward, 0, 0, 7, 7, 0, .plus⟩ ∧ t.outputs = [.tickRst, .led .slow])) = true := by decide
theorem test_cmdT_V32 :
    nextIs (turn 0x74#8 (scene (build false 5) .tracking 3 14946 3 3 0b0110 .plus)) (fun t =>
      decide (view t = ⟨.stopped, .none, 0, 0, 3, 3, 0, .plus⟩ ∧ t.outputs = [.tickRst, .led .solid])) = true := by decide
theorem test_cmdT_V39 :
    nextIs (turn 0x74#8 (scene (build false 5) .stopped 0 0 0 0 0 .plus)) (fun t =>
      decide (view t = ⟨.stopped, .none, 0, 0, 0, 0, 0, .plus⟩ ∧ t.outputs = [])) = true := by decide
theorem test_cmdF_V33 :
    nextIs (turn 0x66#8 (scene (build false 5) .stopped 0 0 0 0 0 .minus)) (fun t =>
      decide (view t = ⟨.fastForward, .forward, 0, 0, 0, 0, 0, .minus⟩ ∧ t.outputs = [.tickRst, .led .fast])) = true := by
  decide
theorem test_cmdF_V42 :
    nextIs (turn 0x66#8 (scene (build false 100) .fastForward 1 200 1 1 0b1100 .plus)) (fun t =>
      decide (view t = ⟨.fastForward, .forward, 2, 200, 2, 2, 0b0100, .plus⟩ ∧ t.outputs = [])) = true := by decide
theorem test_cmdR_V34 :
    nextIs (turn 0x72#8 (scene (build true 5) .stopped 0 0 0 0 0 .plus)) (fun t =>
      decide (view t = ⟨.rewind, .backward, 0, 0, 0, 0, 0, .plus⟩ ∧ t.outputs = [.tickRst, .led .third])) = true := by decide
theorem test_cmdR_V52 :
    nextIs (turn 0x72#8 { scene (build true 5) .stopped 0 0 0 0 0 .plus with sw := true }) (fun t =>
      decide (view t = ⟨.homingFound, .forward, 0, 0, 0, 0, 0, .plus⟩ ∧ t.swPrev = true ∧
        t.outputs = [.tickRst, .led .third, .tickRst, .led .third])) = true := by decide
theorem test_cmdD_V40 :
    nextIs (turn 0x64#8 (scene (build false 5) .stopped 0 0 0 0 0 .minus)) (fun t =>
      decide (t.ddir = .plus ∧ t.outputs = [.tone .scaleUp])) = true := by decide
theorem test_cmdD_V43 :
    nextIs (turn 0x64#8 (scene (build false 100) .fastForward 1 200 1 1 0b1100 .plus)) (fun t =>
      decide (view t = ⟨.fastForward, .forward, 2, 200, 0, 2, 0b1000, .minus⟩ ∧ t.outputs = [.tone .scaleDown])) = true := by
  decide
theorem test_cmdUnrec_V35 :
    nextIs (turn 0x72#8 (scene (build false 5) .stopped 0 0 5 3 0 .minus)) (fun t =>
      decide (view t = ⟨.stopped, .none, 0, 0, 5, 3, 0, .minus⟩ ∧ t.outputs = [.diag 0x72#8] ∧
        t.events = [.invalidToken 0x72#8])) = true := by decide
theorem test_cmdUnrec_V37 :
    nextIs (turn 0x53#8 { scene (build true 5) .stopped 0 0 5 3 0 .minus with sw := true }) (fun t =>
      decide (view t = ⟨.stopped, .none, 0, 0, 5, 3, 0, .minus⟩ ∧ t.outputs = [.diag 0x53#8] ∧ t.swPrev = true)) = true := by
  decide

/-! ### Vectors of 2.4, 2.5 and of program P3: the iteration and the other agents -/

theorem test_limit_V55 :
    nextIs (step (scene (build false 0) .fastForward 1 101 1 1 0b1100 .plus)) (fun t =>
      decide (view t = ⟨.stopped, .none, 0, 0, 1, 1, 0, .plus⟩ ∧ t.outputs = [.tickRst, .led .solid, .tone .alert])) = true := by
  decide
theorem test_commandBeatsHome_V54 :
    nextIs (turn 0x66#8 (scene (build true 5) .homingQuitting 3 300 2 0 0b0100 .plus)) (fun t =>
      decide (view t = ⟨.fastForward, .forward, 0, 0, 2, 0, 0, .plus⟩ ∧ t.events = [])) = true := by decide
theorem test_snapshot_P3_line7 :
    nextIs (step { scene (build true 5) .homingFound 1 250 7 (BitVec.ofInt 32 (-1)) 0b1001 .plus with swPrev := true })
      (fun t => decide (view t = ⟨.homingQuitting, .forward, 0, 0, 7, BitVec.ofInt 32 (-3), 0, .plus⟩ ∧
        t.swPrev = false ∧ t.outputs = [.tickRst, .led .third])) = true := by decide
theorem test_home_beside_diagnostic_R244 :
    nextIs (turn 0x78#8 (scene (build true 5) .homingQuitting 3 301 2 0 0b0100 .plus)) (fun t =>
      decide (view t = ⟨.stopped, .none, 0, 0, 2, 0, 0, .plus⟩ ∧ t.events = [.invalidToken 0x78#8, .homingDone] ∧
        t.outputs = [.diag 0x78#8, .tickRst, .led .solid, .tone .success])) = true := by decide
theorem test_home_P3_line11 :
    nextIs (step (scene (build true 5) .homingQuitting 3 301 2 0 0b0100 .plus)) (fun t =>
      decide (view t = ⟨.stopped, .none, 0, 0, 2, 0, 0, .plus⟩ ∧ t.events = [.homingDone] ∧
        t.outputs = [.tickRst, .led .solid, .tone .success])) = true := by decide
theorem test_tickSource_V59 :
    nextIs (tickAdvance 0 { State.reset with tickNow := 0xFFFFFFFF#32 }) (fun t => decide (t.tickNow = 0xFFFFFFFF#32)) = true ∧
    faultIs (tickAdvance 1 { State.reset with tickNow := 0xFFFFFFFF#32 }) .tickOverflow = true := by decide
theorem test_fifo_V60 :
    nextIs (step { State.reset with fifo := [0x73, 0x74, 0x66, 0x74], agenda := [.pushNonBlocking 0x64] }) (fun t =>
      decide (t.fifo = [0x73, 0x74, 0x66, 0x74] ∧ t.events = [.cmdDropped])) = true ∧
    nextIs (step { State.reset with fifo := [0x73, 0x74, 0x66, 0x74], agenda := [.pushBlocking 0x64] }) (fun t =>
      decide (t.fifo = [0x74, 0x66, 0x74] ∧ t.agenda = [.pushBlocking 0x64])) = true ∧
    nextIs (step { State.reset with fifo := [0x74, 0x66, 0x74], agenda := [.pushBlocking 0x64] }) (fun t =>
      decide (t.fifo = [0x74, 0x66, 0x74, 0x64] ∧ t.agenda = [])) = true := by decide
theorem test_codes_R100_R101 :
    (ledCode .solid, ledCode .slow, ledCode .fast, ledCode .third) = (0, 1, 2, 3) ∧
    (toneCode .success, toneCode .alert, toneCode .scaleUp, toneCode .scaleDown) = (0, 1, 2, 3) := by decide

/-! ### The host's two questions: a placed word runs as the first instruction after reset -/

theorem test_placed_sequencer_words :
    ∀ w ∈ [1, 3, 0, 4, 5, 6, 7], nextIs (step (State.reset.withFetchWord 8 w)) (fun t => t.seqPort.isNone) = true := by decide
theorem test_placed_reserved_word : refusedIs (step (State.reset.withFetchWord 3 2)) .reservedSeq = true := by decide
theorem test_placed_tokens :
    ∀ w ∈ [0x73, 0x70, 0x74, 0x66, 0x72, 0x64, 0x78],
      nextIs (step (State.reset.withFetchWord 8 w)) (fun t => t.fifo.isEmpty) = true := by decide

/-! ### Witnesses: hypotheses of the statements, met by concrete states -/

/-- A state with the position `p`. -/
def atPos (p : Word) : State := { State.reset with pos := p }

theorem witness_StepFwdAdvances :
    (atPos 0x7FFFFFFE#32).pos.toInt < 2147483647 ∧ (atPos 0x7FFFFFFF#32).pos.toInt = 2147483647 := by decide
theorem witness_StepRevRetreats :
    -2147483648 < (atPos 0x80000001#32).pos.toInt ∧ (atPos 0x80000000#32).pos.toInt = -2147483648 := by decide
theorem witness_StopDeenergises : (0b101#3).getLsbD 2 = true ∧ (0b011#3).getLsbD 2 = false := by decide
theorem witness_SequencerCommandsAddUp :
    (∀ i ∈ [Instr.stepFwd, .stepRev, .stepNull, .stop 0b11#2, .stepFwd], isSequencerCommand i = true) ∧
    ∃ t, execAll [.stepFwd, .stepRev, .stepNull, .stop 0b11#2, .stepFwd] State.reset = .next t ∧
      decide (t.pos = 1 ∧ t.phase = 1) = true :=
  ⟨by decide, nextIs_next (p := fun t => decide (t.pos = 1 ∧ t.phase = 1)) (by decide)⟩
theorem witness_EightStepsAreOneCycle :
    (atPos 0x7FFFFFF7#32).pos.toInt + 8 = 2147483647 ∧ (atPos 0x80000008#32).pos.toInt - 8 = -2147483648 := by decide
theorem witness_CoilRomAddressing : (7#4).toNat < 8 ∧ 8 ≤ (8#4).toNat ∧ 8 ≤ (15#4).toNat := by decide
theorem witness_RewindTokenNeedsHoming :
    State.reset.cfg.homing = true ∧ (State.resetWith (build false 5)).cfg.homing = false := by decide
theorem witness_ToggleIsAnInvolution :
    State.reset.ddir = .plus ∧ (State.resetWith { Config.profileA with defdirReset := .minus }).ddir = .minus := by decide
theorem witness_ToggleReversesTheNextStep :
    (atPos 0x7FFFFFFE#32).pos.toInt < 2147483647 ∧ -2147483648 < (atPos 0x80000001#32).pos.toInt := by decide
theorem witness_DecodeAndEncodeAgree :
    Instr.wf true .cmdR = true ∧ Instr.wf false (.cmdUnrec 0x72#8) = true ∧ Instr.wf true (.stop 0b10#2) = true := by decide
/-- Legal at both ends of R9. -/
theorem witness_legal :
    Config.Legal Config.profileA ∧
    Config.Legal { Config.profileA with
      ticksPerSiderealDay := 4294967295, stepsForFullRotation := 1, fixedTicksPerStep := 4294967295,
      travelLimit := 2147483646, quitOffset := 2147483647 } ∧
    Config.Legal { Config.profileA with
      ticksPerSiderealDay := 1, stepsForFullRotation := 1, fixedTicksPerStep := 1, travelLimit := 0, quitOffset := 1 } := by
  decide
theorem witness_DueTimesIncrease : Config.Legal Config.profileA ∧ (3 ≤ 3) ∧ (3 < 4) := by decide
theorem witness_PipelineStagesAreExact :
    (stageIndex 0xFFFFFFFF#32).toNat ≤ 4294967296 ∧ Config.Legal Config.profileA := by decide
theorem witness_DueIsTheExactTest :
    Config.Legal (scene (build true 5) .tracking 0 0 0 0 0 .plus).cfg ∧
    rateClass (scene (build true 5) .tracking 0 0 0 0 0 .plus).mode = some .sidereal ∧
    rateClass (scene (build true 5) .rewind 0 0 0 0 0 .plus).mode = some .fast ∧
    (scene (build true 5) .tracking 0 0 0 0 0 .plus).stepCount = 0 ∧
    (scene (build true 5) .tracking 0 0 0 0 0 .plus).tickNow = 0 ∧
    (scene (build true 5) .tracking 0 0 0 0 0 .plus).tickOrigin = 0 := by decide
/-- The last due time below 2^32 and the first above it (V20, R160). -/
theorem witness_DueIsTheExactTest_top :
    ticks (build true 5) .sidereal 862187 = 4294965458 ∧ ticks (build true 5) .sidereal 862188 = 4294970440 ∧
    4294965458 < 4294967296 ∧ 4294967296 ≤ 4294970440 := by
  norm_num [ticks, ticksSidereal, build, Config.profileA]

/-- Tracking, three steps done, the next one due at 19925. -/
def tracking (now : Word) : State := scene (build true 5) .tracking 3 now 3 3 0b0110 .plus

theorem turn_of_empty_agenda {s : State} (hp : s.seqPort = none) (ha : s.agenda = []) : RcbHasTurn s := ⟨hp, .inl ha⟩

/-- The three ways the RCB has the turn. -/
theorem witness_RcbHasTurn :
    RcbHasTurn (tracking 0) ∧ RcbHasTurn { tracking 0 with agenda := [.wake, .boot] } ∧
    RcbHasTurn { tracking 0 with agenda := [.pushBlocking 0x74], fifo := [0x64, 0x64, 0x64, 0x64] } :=
  ⟨⟨rfl, .inl rfl⟩, ⟨rfl, .inr (.inl ⟨_, rfl⟩)⟩, ⟨rfl, .inr (.inr ⟨_, _, rfl, by decide⟩)⟩⟩

theorem witness_StepRunsTheHeadToken :
    (turn 0x74#8 (tracking 0)) = step { tracking 0 with fifo := [0x74#8] } ∧ (tracking 0).cfg.Legal ∧
    RcbHasTurn { tracking 0 with fifo := [0x74#8] } :=
  ⟨rfl, by decide, turn_of_empty_agenda rfl rfl⟩
theorem witness_StepWithoutATokenRunsTheTests :
    (tracking 0).cfg.Legal ∧ RcbHasTurn (tracking 0) ∧ (tracking 0).fifo = [] ∧ (tracking 0).mode ≠ .stopped :=
  ⟨by decide, turn_of_empty_agenda rfl rfl, rfl, by decide⟩
theorem witness_StepRunsThePortWord :
    State.reset.cfg.Legal ∧ (State.reset.withFetchWord 3 1).seqPort = some 0b001#3 := by decide
theorem witness_StoppedAndEmptyIsHeld :
    State.reset.cfg.Legal ∧ RcbHasTurn State.reset ∧ State.reset.fifo = [] ∧ State.reset.mode = .stopped :=
  ⟨by decide, turn_of_empty_agenda rfl rfl, rfl, rfl⟩
theorem witness_IllegalConfigurationIsRefused :
    ¬ (State.resetWith { Config.profileA with cmdDepth := 3 }).cfg.Legal := by decide

/-- `Rewind` with the switch newly pressed, at position `p`. -/
def pressed (p : Word) : State := { scene (build true 5) .rewind 2 250 6 p 0b0001 .plus with sw := true }

theorem witness_SwitchPressedFindsHome :
    (∀ p : Word, (pressed p).cfg.Legal ∧ (pressed p).cfg.homing = true ∧ (pressed p).mode = .rewind ∧
      (pressed p).swPrev = false) ∧
    ¬((pressed 5).cfg.boundsCheck = true ∧ ((pressed 5).cfg.travelLimit : Int) < (pressed 5).pos.toInt) ∧
    ((pressed 6).cfg.boundsCheck = true ∧ ((pressed 6).cfg.travelLimit : Int) < (pressed 6).pos.toInt) :=
  ⟨fun _ => ⟨(by decide : Config.Legal (build true 5)), rfl, rfl, rfl⟩, by decide, by decide⟩

/-- `HomingFound` with the switch newly released. -/
def released : State := { scene (build true 5) .homingFound 1 250 7 (BitVec.ofInt 32 (-1)) 0b1001 .plus with swPrev := true }

theorem witness_SwitchReleasedSnapshotsPosition :
    released.cfg.Legal ∧ released.cfg.homing = true ∧ released.mode = .homingFound ∧ released.swPrev = true := by decide

/-- `HomingQuitting` at position `p`. -/
def quitting (p : Word) (now : Word) : State := scene (build true 5) .homingQuitting 3 now 2 p 0b0100 .plus

theorem witness_HomeReachedStopsWithSuccess :
    (quitting 0 301).cfg.homing = true ∧ (quitting 0 301).mode = .homingQuitting ∧ 0 ≤ (quitting 0 301).pos.toInt := by decide

/-- One past the travel limit, in a forward mode. -/
def beyond (m : Mode) : State := scene (build true 5) m 6 700 6 6 0b0001 .plus

theorem witness_TravelLimitForcesStop :
    ∀ m ∈ [Mode.tracking, .fastForward, .homingFound], NoHomingCause false (beyond m) ∧ NoHomingCause true (beyond m) ∧
      (beyond m).cfg.boundsCheck = true ∧ (beyond m).direction = .forward ∧ (beyond m).mode ≠ .stopped ∧
      ((beyond m).cfg.travelLimit : Int) < (beyond m).pos.toInt := by
  unfold NoHomingCause
  decide

theorem tracking_inv_due : Inv (tracking 19925) := by constructor <;> decide
theorem tracking_no_cause (b : Bool) (now : Word) : NoCause b (tracking now) := by
  refine ⟨⟨?_, ?_, ?_⟩, ?_⟩ <;> simp [tracking, scene, build, State.resetWith, Config.profileA]

theorem witness_DueStepIsTaken :
    (tracking 19925).cfg.Legal ∧ rateClass (tracking 19925).mode = some .sidereal ∧ NoCause false (tracking 19925) ∧
    ticks (tracking 19925).cfg .sidereal ((tracking 19925).stepCount.toNat + 1) ≤
      ((tracking 19925).tickNow - (tracking 19925).tickOrigin).toNat ∧
    -2147483648 ≤ (tracking 19925).pos.toInt + directionValue (tracking 19925).direction ∧
    (tracking 19925).pos.toInt + directionValue (tracking 19925).direction ≤ 2147483647 :=
  ⟨by decide, rfl, tracking_no_cause _ _, by decide, by decide, by decide⟩
theorem witness_NoStepBeforeItsTime :
    (tracking 19924).cfg.Legal ∧ NoCause false (tracking 19924) ∧ rateClass (tracking 19924).mode = some .sidereal ∧
    ((tracking 19924).tickNow - (tracking 19924).tickOrigin).toNat <
      ticks (tracking 19924).cfg .sidereal ((tracking 19924).stepCount.toNat + 1) :=
  ⟨by decide, tracking_no_cause _ _, rfl, by decide⟩
/-- The clause of `Stopped`. -/
theorem witness_NoStepBeforeItsTime_stopped :
    State.reset.cfg.Legal ∧ NoCause true State.reset ∧ State.reset.mode = .stopped :=
  ⟨by decide, by unfold NoCause NoHomingCause; decide, rfl⟩
/-- The empty FIFO, an inert `s`, `d`, and an unrecognised token, at the due time and one tick before it. -/
theorem witness_QuietTokenLeavesTheTimingRunning :
    (∀ (now : Word) (q : List Token), RcbHasTurn { tracking now with fifo := q }) ∧ (tracking 19925).cfg.Legal ∧
    rateClass (tracking 19925).mode = some .sidereal ∧
    (∀ (now : Word) (q : List Token), NoCause (tracking now).sw { tracking now with fifo := q }) ∧
    (∀ c ∈ [0x73#8, 0x70#8, 0x64#8, 0x78#8], tokenTarget true c .tracking = .tracking) ∧
    ticks (build true 5) .sidereal (3 + 1) = 19925 :=
  ⟨fun _ _ => turn_of_empty_agenda rfl rfl, by decide, rfl, fun now _ => tracking_no_cause _ now, by decide, by decide⟩
theorem witness_ForwardTokenAboveTheLimitIsForcedBack :
    RcbHasTurn { beyond .fastForward with fifo := [0x73#8] } ∧ RcbHasTurn { beyond .tracking with fifo := [0x66#8] } ∧
    (beyond .fastForward).cfg.Legal ∧ (beyond .fastForward).cfg.boundsCheck = true ∧
    ((beyond .fastForward).cfg.travelLimit : Int) < (beyond .fastForward).pos.toInt ∧
    (beyond .fastForward).mode ≠ .tracking ∧ (beyond .tracking).mode ≠ .fastForward :=
  ⟨turn_of_empty_agenda rfl rfl, turn_of_empty_agenda rfl rfl, by decide⟩

/-- `Stopped` at position `p`, the token `r` waiting and the switch newly pressed. -/
def rewinding (p : Word) : State := { scene (build true 5) .stopped 0 0 0 p 0 .plus with sw := true, fifo := [0x72#8] }

theorem witness_RewindOntoThePressedSwitch :
    RcbHasTurn (rewinding 5) ∧ RcbHasTurn (rewinding 6) ∧ (rewinding 5).cfg.Legal ∧ (rewinding 5).fifo = [0x72#8] ∧
    (rewinding 5).cfg.homing = true ∧ (rewinding 5).mode ≠ .rewind ∧ (rewinding 5).swPrev = false ∧
    (rewinding 5).sw = true ∧ ((rewinding 5).cfg.travelLimit : Int) = (rewinding 5).pos.toInt ∧
    (rewinding 6).cfg.boundsCheck = true ∧ ((rewinding 6).cfg.travelLimit : Int) < (rewinding 6).pos.toInt :=
  ⟨turn_of_empty_agenda rfl rfl, turn_of_empty_agenda rfl rfl, by decide⟩
/-- One state for each of the four clauses, with the token `x` at the head. -/
theorem witness_UnrecognisedTokenDoesNotStopTheTests :
    (∀ s ∈ [pressed 5, released, quitting 0 301, beyond .fastForward], s.cfg.Legal ∧ s.seqPort = none ∧ s.agenda = [] ∧
      decodeCmd s.cfg.homing 0x78#8 = .cmdUnrec 0x78#8 ∧ s.cfg.homing = true) ∧
    ((pressed 5).mode = .rewind ∧ (pressed 5).swPrev = false ∧ (pressed 5).sw = true ∧
      ((pressed 5).cfg.travelLimit : Int) = (pressed 5).pos.toInt) ∧
    (released.mode = .homingFound ∧ released.swPrev = true ∧ released.sw = false) ∧
    ((quitting 0 301).mode = .homingQuitting ∧ (quitting 0 301).pos = 0) ∧
    (NoHomingCause (beyond .fastForward).sw (beyond .fastForward) ∧ (beyond .fastForward).direction = .forward ∧
      (beyond .fastForward).mode ≠ .stopped ∧ (beyond .fastForward).cfg.boundsCheck = true ∧
      ((beyond .fastForward).cfg.travelLimit : Int) < (beyond .fastForward).pos.toInt) := by
  unfold NoHomingCause
  decide
/-- Also the witness of `ModeFollowsTheTransitionTable`, `OneTokenPerIteration`, `EveryStepKeepsTheInvariant`,
`ConfigurationIsNeverWritten`, `TickSourceFallsOnlyByReset` and `StallAndOverflowAreNeverRaised`: the clause of a step taken. -/
theorem witness_AtMostOneStepPerIteration :
    Inv (tracking 19925) ∧ RcbHasTurn (tracking 19925) ∧ (tracking 19925).events = [] ∧
    ∃ t, step (tracking 19925) = .next t ∧ decide (t.stepCount = 4 ∧ t.pos = 4) = true :=
  ⟨tracking_inv_due, turn_of_empty_agenda rfl rfl, rfl,
    nextIs_next (p := fun t => decide (t.stepCount = 4 ∧ t.pos = 4)) (by decide)⟩
/-- The clause of no step, through the snapshot of step 3; also the witness of `ModeChangeRestartsTheTiming`. -/
theorem witness_ModeChangeRestartsTheTiming :
    Inv released ∧ RcbHasTurn released ∧ ∃ t, step released = .next t ∧ decide (t.mode ≠ released.mode) = true :=
  ⟨by constructor <;> decide, turn_of_empty_agenda rfl rfl, nextIs_next (p := fun t => decide (t.mode ≠ released.mode)) (by decide)⟩

/-- An agent's step next, with `n` tokens in the FIFO. -/
def pending (a : AgentStep) (n : Nat) : State := { State.reset with fifo := List.replicate n 0x73#8, agenda := [a] }

theorem witness_BlockingPushWaitsForRoom :
    (pending (.pushBlocking 0x74) 3).cfg.Legal ∧ (pending (.pushBlocking 0x74) 3).seqPort = none ∧
    (pending (.pushBlocking 0x74) 3).agenda = .pushBlocking 0x74 :: [] ∧
    (pending (.pushBlocking 0x74) 3).fifo.length < (pending (.pushBlocking 0x74) 3).cfg.cmdDepth ∧
    (pending (.pushBlocking 0x74) 4).cfg.cmdDepth ≤ (pending (.pushBlocking 0x74) 4).fifo.length ∧
    ∃ t, step (pending (.pushBlocking 0x74) 4) = .next t ∧ decide (t.mode = .tracking) = true :=
  ⟨by decide, rfl, rfl, by decide, by decide, nextIs_next (p := fun t => decide (t.mode = .tracking)) (by decide)⟩
theorem witness_NonBlockingPushDropsWhenFull :
    (pending (.pushNonBlocking 0x74) 3).cfg.Legal ∧ (pending (.pushNonBlocking 0x74) 3).seqPort = none ∧
    (pending (.pushNonBlocking 0x74) 3).agenda = .pushNonBlocking 0x74 :: [] ∧
    (pending (.pushNonBlocking 0x74) 3).fifo.length < (pending (.pushNonBlocking 0x74) 3).cfg.cmdDepth ∧
    (pending (.pushNonBlocking 0x74) 4).cfg.cmdDepth ≤ (pending (.pushNonBlocking 0x74) 4).fifo.length := by decide
theorem witness_TickAdvanceCountsOrFaults :
    (pending (.tickAdvance 4294967295) 0).cfg.Legal ∧ (pending (.tickAdvance 4294967295) 0).seqPort = none ∧
    (pending (.tickAdvance 4294967295) 0).agenda = .tickAdvance 4294967295 :: [] ∧
    (pending (.tickAdvance 4294967295) 0).tickNow.toNat + 4294967295 < 4294967296 ∧
    4294967296 ≤ (pending (.tickAdvance 4294967296) 0).tickNow.toNat + 4294967296 := by decide
theorem witness_SwitchStepSetsTheLevel :
    (pending (.setSwitch true) 0).cfg.Legal ∧ (pending (.setSwitch true) 0).seqPort = none ∧
    (pending (.setSwitch true) 0).agenda = .setSwitch true :: [] := by decide
theorem witness_BootLoadsTheResetValues :
    (pending .boot 2).cfg.Legal ∧ (pending .boot 2).seqPort = none ∧ (pending .boot 2).agenda = .boot :: [] := by decide
theorem witness_OnlyTheRcbWritesItsState :
    (pending (.tickAdvance 7) 1).seqPort = none ∧ ¬ RcbHasTurn (pending (.tickAdvance 7) 1) ∧
    (∀ rest, (pending (.tickAdvance 7) 1).agenda ≠ .boot :: rest) ∧
    ∃ t, step (pending (.tickAdvance 7) 1) = .next t ∧ decide (t.tickNow = 7) = true := by
  refine ⟨rfl, ?_, ?_, nextIs_next (p := fun t => decide (t.tickNow = 7)) (by decide)⟩
  · rintro ⟨_, h | ⟨rest, h⟩ | ⟨c, rest, h, _⟩⟩ <;> simp [pending] at h
  · intro rest h
    simp [pending] at h
theorem witness_ResetIsSafe : Config.profileA.Legal ∧ Inv State.reset := ⟨by decide, by constructor <;> decide⟩
theorem witness_EveryRunFromResetIsSafe :
    Config.profileA.Legal ∧
    ∃ t, runSteps 3 { State.resetWith Config.profileA with agenda := [.pushBlocking 0x66, .wake, .tickAdvance 100] } = .next t ∧
      decide (t.mode = .fastForward ∧ t.tickNow = 100) = true :=
  ⟨by decide, nextIs_next (p := fun t => decide (t.mode = .fastForward ∧ t.tickNow = 100)) (by decide)⟩
/-- The three ways a safe state faults. -/
theorem witness_SafeStatesFaultOnlyOutsideTheEnvelope :
    faultIs (step (pending (.tickAdvance 4294967296) 0)) .tickOverflow = true ∧
    faultIs (step (scene (build true 5) .rewind 0 100 0 0x80000000#32 0 .plus)) .posOverflow = true ∧
    faultIs (step (scene { build true 5 with boundsCheck := false } .fastForward 0 100 0 0x7FFFFFFF#32 0 .plus))
      .posOverflow = true := by decide
theorem witness_SafeStatesFault_inv :
    Inv (pending (.tickAdvance 4294967296) 0) ∧ Inv (scene (build true 5) .rewind 0 100 0 0x80000000#32 0 .plus) ∧
    Inv (scene { build true 5 with boundsCheck := false } .fastForward 0 100 0 0x7FFFFFFF#32 0 .plus) :=
  ⟨by constructor <;> decide, by constructor <;> decide, by constructor <;> decide⟩
theorem witness_TickValueWhileStoppedDoesNotMatter :
    Inv State.reset ∧ RcbHasTurn State.reset ∧ State.reset.mode = .stopped :=
  ⟨by constructor <;> decide, turn_of_empty_agenda rfl rfl, rfl⟩
theorem witness_FeedbackIsNeverReadBack :
    withoutFeedback (tracking 19925) = withoutFeedback { tracking 19925 with ledBox := some .slow, toneBox := some .alert } := rfl
theorem witness_SwitchIsIgnoredWithoutHoming :
    (State.resetWith (build false 5)).cfg.homing = false ∧
    withoutSwitch (State.resetWith (build false 5)) = withoutSwitch { State.resetWith (build false 5) with sw := true } := by
  decide
/-- `HomingQuitting` three steps short of home. -/
def leaving : State :=
  { scene (build true 5) .homingQuitting 0 0 7 (BitVec.ofInt 32 (-3)) 0 .plus with agenda := paced 100 3 }

theorem witness_HomingQuittingReachesHome :
    Inv leaving ∧ leaving.mode = .homingQuitting ∧ leaving.fifo = [] ∧ leaving.pos.toInt = -((3 : Nat) : Int) ∧
    leaving.agenda = paced leaving.cfg.fixedTicksPerStep 3 ∧
    leaving.stepCount.toNat * leaving.cfg.fixedTicksPerStep ≤ leaving.tickNow.toNat ∧
    leaving.tickNow.toNat + 3 * leaving.cfg.fixedTicksPerStep < 4294967296 :=
  ⟨by constructor <;> decide, by decide⟩

end Sys2Proof.Tests
end

section
/-! The codes of `mode`, `direction` and `ddir` read back (spec/30_encoding.md R98, R99; U7 for the unused codes). -/

namespace Sys2Proof.Machine

@[simp] theorem modeOfCode_modeCode (m : Mode) : modeOfCode (modeCode m) = some m := by
  cases m <;> rfl

/-- The unused codes of U7; a 3 bit code has eight values, and each is looked up. -/
theorem modeOfCode_eq_none_iff (b : BitVec 3) : modeOfCode b = none ↔ b = 6 ∨ b = 7 := by
  revert b
  decide

@[simp] theorem directionOfCode_directionCode (d : Direction) : directionOfCode (directionCode d) = some d := by
  cases d <;> rfl

/-- The code is the number in two's complement (R99). -/
@[simp] theorem directionCode_toInt (d : Direction) : (directionCode d).toInt = directionValue d := by
  cases d <;> rfl

theorem directionOfCode_eq_none_iff (b : BitVec 2) : directionOfCode b = none ↔ b = 0b10#2 := by
  revert b
  decide

theorem signValue_eq_one_sub_two_mul (g : Sign) : signValue g = 1 - 2 * ((signCode g).toNat : Int) := by
  cases g <;> rfl

/-- Settles O18: the six rows are the model's tables at one mode each, and each code reads back by its own lemma. -/
theorem stateCodesReadBack : Obligations.StateCodesReadBack := by
  refine ⟨?stopped, ?tracking, ?fastForward, ?rewind, ?homingFound, ?homingQuitting, modeOfCode_modeCode,
    modeOfCode_eq_none_iff, fun d => ⟨directionOfCode_directionCode d, directionCode_toInt d⟩,
    directionOfCode_eq_none_iff, signValue_eq_one_sub_two_mul⟩
  all_goals exact ⟨rfl, rfl, rfl, rfl⟩

end Sys2Proof.Machine
end

section
/-! The StepSequencer's laws (spec/40_stepsequencer.md R121 to R129): what a command moves, as one relation that composes. -/

namespace Sys2Proof.Machine

open Sys2Proof.Statement

/-- From `s` to `t` the motor has moved by `d` nominal steps (R125, R126): the phase by `d * ddir` modulo 8, `pos` by `d`;
the coil is left open, and everything else is unchanged. -/
structure MovedBy (d : Int) (s t : State) : Prop where
  phase : (t.phase.toNat : Int) = ((s.phase.toNat : Int) + d * signValue s.ddir) % 8
  pos : t.pos.toInt = s.pos.toInt + d
  frame : t = { s with phase := t.phase, coil := t.coil, pos := t.pos }

namespace MovedBy

variable {d e : Int} {s t u : State}

theorem ddir_eq (h : MovedBy d s t) : t.ddir = s.ddir := by rw [h.frame]

theorem cfg_eq (h : MovedBy d s t) : t.cfg = s.cfg := by rw [h.frame]

theorem refl (s : State) : MovedBy 0 s s where
  phase := by omega
  pos := by omega
  frame := rfl

theorem trans (h : MovedBy d s u) (h' : MovedBy e u t) : MovedBy (d + e) s t where
  phase := by rw [h'.phase, h.phase, h.ddir_eq, add_mul]; omega
  pos := by rw [h'.pos, h.pos]; omega
  frame := by
    have hu := h.frame
    rw [hu] at h'
    exact h'.frame

/-- A move by whole cycles of the phase table brings the phase back (R128). -/
theorem phase_eq_of_dvd (h : MovedBy d s t) (hd : 8 ∣ d) : t.phase = s.phase := by
  have hcycle : (8 : Int) ∣ d * signValue s.ddir := Dvd.dvd.mul_right hd _
  have hphase := h.phase
  exact BitVec.eq_of_toNat_eq (by omega)

/-- What a move by whole cycles leaves: `pos` apart, only the coil can have changed, and it shows what it was driven with. -/
theorem eq_of_dvd (h : MovedBy d s t) (hd : 8 ∣ d) (hcoil : t.coil = tableRow (activeTable s.cfg) t.phase) :
    t = { s with pos := t.pos, coil := tableRow (activeTable s.cfg) s.phase } := by
  have hframe := h.frame
  rw [hcoil, h.phase_eq_of_dvd hd] at hframe
  exact hframe

end MovedBy

/-! ### One command -/

theorem movedBy_steppedState {d : Int} {s : State} (h : s.pos.toInt + d ≤ 2147483647)
    (h' : -2147483648 ≤ s.pos.toInt + d) : MovedBy d s (steppedState d s) where
  phase := phase_advance s.phase (d * signValue s.ddir)
  pos := toInt_ofInt_of_range h h'
  frame := rfl

theorem movedBy_ssqStop (s : State) : MovedBy 0 s (ssqStop s) where
  phase := (MovedBy.refl s).phase
  pos := (MovedBy.refl s).pos
  frame := rfl

theorem steppedState_coil (d : Int) (s : State) :
    (steppedState d s).coil = tableRow (activeTable s.cfg) (steppedState d s).phase :=
  coilRomRead_romAddress s.cfg s.cfg.topology _

/-- `step(d)` in range: it completes, moves by `d` and drives the row of the new phase. -/
theorem ssqStep_moves {d : Int} {s : State} (h : s.pos.toInt + d ≤ 2147483647) (h' : -2147483648 ≤ s.pos.toInt + d) :
    ∃ t, ssqStep d s = .next t ∧ MovedBy d s t ∧ t.coil = tableRow (activeTable s.cfg) t.phase :=
  ⟨steppedState d s, ssqStep_of_range h h', movedBy_steppedState h h', steppedState_coil d s⟩

theorem movedBy_of_ssqStep {d : Int} {s t : State} (h : ssqStep d s = .next t) : MovedBy d s t := by
  obtain ⟨hstep, hmax, hmin⟩ | ⟨hfault, -⟩ := ssqStep_cases d s
  · obtain rfl : steppedState d s = t := by simpa [hstep] using h
    exact movedBy_steppedState hmax hmin
  · simp [hfault] at h

/-- Settles O1: in range the command is `step(+1)`, past the top of the register it faults. -/
theorem stepFwdAdvances : Obligations.StepFwdAdvances := by
  refine ⟨rfl, fun s => ⟨fun hpos => ?_, fun hpos => ?_⟩⟩
  · have hmin := (pos_range s.pos).1
    obtain ⟨t, hstep, hmove, hcoil⟩ := ssqStep_moves (d := 1) (s := s) (by omega) (by omega)
    exact ⟨t, hstep, by simpa using hmove.phase, hcoil, hmove.pos, hmove.frame⟩
  · exact (exec_stepFwd s).trans (ssqStep_out_of_range (.inl (by omega)))

/-- Settles O2: in range the command is `step(-1)`, below the bottom of the register it faults. -/
theorem stepRevRetreats : Obligations.StepRevRetreats := by
  refine ⟨rfl, fun s => ⟨fun hpos => ?_, fun hpos => ?_⟩⟩
  · have hmax := (pos_range s.pos).2
    obtain ⟨t, hstep, hmove, hcoil⟩ := ssqStep_moves (d := -1) (s := s) (by omega) (by omega)
    exact ⟨t, hstep, by simpa [sub_eq_add_neg] using hmove.phase, hcoil, hmove.pos, hmove.frame⟩
  · exact (exec_stepRev s).trans (ssqStep_out_of_range (.inr (by omega)))

/-- The `stop` bit alone decides (R96, R97). -/
theorem decodeSeq_eq_stop_iff (w : SeqWord) : (∃ x, decodeSeq w = .stop x) ↔ seqStopBit w = true := by
  constructor
  · rintro ⟨x, hx⟩
    unfold decodeSeq at hx
    split_ifs at hx with hstop
    exact hstop
  · exact fun hstop => ⟨seqDirBits w, if_pos hstop⟩

/-- Settles O4: `STOP` is `stop()` whatever its `dir` bits, and the decoder looks at the `stop` bit first. -/
theorem stopDeenergises : Obligations.StopDeenergises :=
  ⟨exec_stop, fun w => (decodeSeq_eq_stop_iff w).symm⟩

/-! ### Sequences of commands -/

/-- The rows of R127: each sequencer command that completes moves by its own net step. -/
theorem movedBy_of_exec {i : Instr} {s t : State} (hi : isSequencerCommand i = true) (h : exec i s = .next t) :
    MovedBy (netSteps [i]) s t := by
  cases i with
  | stepFwd => exact movedBy_of_ssqStep h
  | stepRev => exact movedBy_of_ssqStep h
  | stepNull => exact movedBy_of_ssqStep h
  | stop x =>
    rw [exec_stop] at h
    cases h
    exact movedBy_ssqStop _
  | _ => cases hi

theorem netSteps_cons (i : Instr) (l : List Instr) : netSteps (i :: l) = netSteps [i] + netSteps l := by
  cases i <;> simp [netSteps]

theorem movedBy_of_execAll {l : List Instr} {s t : State} (hl : ∀ i ∈ l, isSequencerCommand i = true)
    (h : execAll l s = .next t) : MovedBy (netSteps l) s t := by
  induction l generalizing s with
  | nil =>
    cases h
    exact .refl _
  | cons i rest ih =>
    obtain ⟨hi, hrest⟩ := List.forall_mem_cons.mp hl
    obtain ⟨u, hu, ht⟩ := andThen_eq_next.mp h
    rw [netSteps_cons]
    exact (movedBy_of_exec hi hu).trans (ih hrest ht)

/-- Settles O6: the moves of the single commands compose. -/
theorem sequencerCommandsAddUp : Obligations.SequencerCommandsAddUp := by
  intro l s t hl h
  obtain ⟨hphase, hpos, hframe⟩ := movedBy_of_execAll hl h
  exact ⟨hphase, hpos, hframe⟩

/-- `n + 1` equal steps complete when each of them stays in the range of `pos`; the last one drives its row. -/
theorem execAll_replicate_moves {i : Instr} {d : Int} (hi : ∀ s, exec i s = ssqStep d s) (n : Nat) (s : State)
    (hrange : ∀ k : Nat, k ≤ n + 1 → s.pos.toInt + k * d ≤ 2147483647 ∧ -2147483648 ≤ s.pos.toInt + k * d) :
    ∃ t, execAll (List.replicate (n + 1) i) s = .next t ∧ MovedBy ((n + 1 : Nat) * d) s t ∧
      t.coil = tableRow (activeTable s.cfg) t.phase := by
  induction n generalizing s with
  | zero =>
    obtain ⟨hmax, hmin⟩ := hrange 1 (by omega)
    obtain ⟨t, ht, hmove, hcoil⟩ := ssqStep_moves hmax hmin
    rw [Nat.cast_one, one_mul] at ht
    exact ⟨t, by simp [execAll, hi, ht], hmove, hcoil⟩
  | succ n ih =>
    have hfirst := hrange 1 (by omega)
    rw [Nat.cast_one, one_mul] at hfirst
    obtain ⟨u, hu, hmove, -⟩ := ssqStep_moves hfirst.1 hfirst.2
    have hrest (k : Nat) (hk : k ≤ n + 1) :
        u.pos.toInt + k * d ≤ 2147483647 ∧ -2147483648 ≤ u.pos.toInt + k * d := by
      have hnext := hrange (k + 1) (by omega)
      rwa [Nat.cast_add_one, add_one_mul, add_comm (k * d) d, ← add_assoc, ← hmove.pos] at hnext
    obtain ⟨t, ht, hmoves, hcoil⟩ := ih u hrest
    refine ⟨t, by rw [List.replicate_succ, execAll, hi, hu, andThen_next, ht], ?_, hmove.cfg_eq ▸ hcoil⟩
    convert hmove.trans hmoves using 1
    push_cast
    ring

/-- Settles O7: eight moves in one direction are a move by a whole cycle. -/
theorem eightStepsAreOneCycle : Obligations.EightStepsAreOneCycle := by
  refine fun s => ⟨fun hpos => ?_, fun hpos => ?_⟩
  · have hmin := (pos_range s.pos).1
    obtain ⟨t, hrun, hmove, hcoil⟩ := execAll_replicate_moves exec_stepFwd 7 s (fun k hk => by omega)
    exact ⟨t, hrun, hmove.pos, hmove.eq_of_dvd (by decide) hcoil⟩
  · have hmax := (pos_range s.pos).2
    obtain ⟨t, hrun, hmove, hcoil⟩ := execAll_replicate_moves exec_stepRev 7 s (fun k hk => by omega)
    exact ⟨t, hrun, hmove.pos, hmove.eq_of_dvd (by decide) hcoil⟩

/-! ### The toggle -/

theorem exec_cmdD (s : State) : exec .cmdD s = .next (toggled s) := rfl

theorem signValue_signFlip (g : Sign) : signValue (signFlip g) = -signValue g := by
  cases g <;> rfl

/-- After a toggle a move walks the phase table the other way (R129). -/
theorem phase_of_movedBy_toggled {d : Int} {s t : State} (h : MovedBy d (toggled s) t) :
    (t.phase.toNat : Int) = ((s.phase.toNat : Int) - d * signValue s.ddir) % 8 := by
  have hsign : signValue (toggled s).ddir = -signValue s.ddir := signValue_signFlip s.ddir
  rw [h.phase, hsign, mul_neg, ← sub_eq_add_neg]
  rfl

/-- Settles O14: the toggle writes `ddir` alone of what a step reads, and the step is then a move from the toggled state. -/
theorem toggleReversesTheNextStep : Obligations.ToggleReversesTheNextStep := by
  intro s
  obtain ⟨hmin, hmax⟩ := pos_range s.pos
  have hpos : (toggled s).pos.toInt = s.pos.toInt := rfl
  refine ⟨toggled s, exec_cmdD s, rfl, rfl, rfl, rfl, fun hroom => ?_, fun hroom => ?_⟩
  · obtain ⟨t, hstep, hmove, -⟩ := ssqStep_moves (d := 1) (s := toggled s) (by omega) (by omega)
    exact ⟨t, hstep, by simpa using phase_of_movedBy_toggled hmove, hmove.pos⟩
  · obtain ⟨t, hstep, hmove, -⟩ := ssqStep_moves (d := -1) (s := toggled s) (by omega) (by omega)
    exact ⟨t, hstep, by simpa using phase_of_movedBy_toggled hmove, hmove.pos⟩

end Sys2Proof.Machine
end

section
/-! The RateClock's laws (spec/41_rateclock.md R141, R146, R147, R149, R153): the formulas as functions of the step index.
What the stages compute is in Sys2Proof/Laws/RateClock.lean. -/

namespace Sys2Proof.Machine

variable {c : Config}

/-! ### The tracking formula -/

@[simp] theorem ticksSidereal_zero (c : Config) : ticksSidereal c 0 = 0 := by
  simp [ticksSidereal]

/-- One full rotation takes one sidereal day (R141). -/
theorem ticksSidereal_stepsForFullRotation (hS : 1 ≤ c.stepsForFullRotation) :
    ticksSidereal c c.stepsForFullRotation = c.ticksPerSiderealDay :=
  Nat.mul_div_cancel_left _ hS

theorem mul_ticksSidereal_le (c : Config) (n : Nat) :
    c.stepsForFullRotation * ticksSidereal c n ≤ n * c.ticksPerSiderealDay :=
  Nat.mul_div_le _ _

theorem lt_mul_ticksSidereal_add_one (hS : 1 ≤ c.stepsForFullRotation) (n : Nat) :
    n * c.ticksPerSiderealDay < c.stepsForFullRotation * (ticksSidereal c n + 1) :=
  Nat.lt_mul_div_succ _ hS

/-- The product of stage P2 fits 64 bits for every index a `step_count` can give (R149). -/
theorem mul_ticksPerSiderealDay_lt {n : Nat} (hT : c.ticksPerSiderealDay < 4294967296) (hn : n ≤ 4294967296) :
    n * c.ticksPerSiderealDay < 18446744073709551616 :=
  Nat.mul_lt_mul_of_le_of_lt hn hT (by decide)

/-- Settles O19: the floor's two inequalities, the product's bound and the corner cases, each a lemma; profile A's value is
computed. -/
theorem ticksSiderealIsTheFloor : Obligations.TicksSiderealIsTheFloor := by
  refine ⟨fun c n hlegal => ?_, by decide⟩
  obtain ⟨hS, -, hT, -⟩ := hlegal
  exact ⟨mul_ticksSidereal_le c n, lt_mul_ticksSidereal_add_one hS n, mul_ticksPerSiderealDay_lt hT,
    ticksSidereal_zero c, ticksSidereal_stepsForFullRotation hS⟩

/-! ### The due times as a sequence -/

/-- Since `S ≤ T`, one more step adds at least one whole divisor to the dividend (R146). -/
theorem ticksSidereal_lt_add_one (hS : 1 ≤ c.stepsForFullRotation) (hST : c.stepsForFullRotation ≤ c.ticksPerSiderealDay)
    (n : Nat) : ticksSidereal c n < ticksSidereal c (n + 1) := by
  have hdividend : n * c.ticksPerSiderealDay + c.stepsForFullRotation ≤ (n + 1) * c.ticksPerSiderealDay := by
    rw [Nat.add_one_mul]
    exact Nat.add_le_add_left hST _
  calc ticksSidereal c n
    _ < n * c.ticksPerSiderealDay / c.stepsForFullRotation + 1 := Nat.lt_add_one _
    _ = (n * c.ticksPerSiderealDay + c.stepsForFullRotation) / c.stepsForFullRotation := (Nat.add_div_right _ hS).symm
    _ ≤ ticksSidereal c (n + 1) := Nat.div_le_div_right hdividend

theorem ticksFast_lt_add_one (hF : 1 ≤ c.fixedTicksPerStep) (n : Nat) : ticksFast c n < ticksFast c (n + 1) :=
  Nat.mul_lt_mul_of_pos_right (Nat.lt_add_one n) hF

/-- Consecutive due times differ by at least one tick, in both classes (R146). -/
theorem ticks_strictMono (hlegal : c.Legal) (k : RateClass) : StrictMono (ticks c k) := by
  obtain ⟨hS, hST, -, hF, -⟩ := hlegal
  cases k with
  | sidereal => exact strictMono_nat_of_lt_succ (ticksSidereal_lt_add_one hS hST)
  | fast => exact strictMono_nat_of_lt_succ (ticksFast_lt_add_one hF)

/-- The lower bound of R147: a strictly increasing sequence of naturals is nowhere below its index. -/
theorem le_ticks (hlegal : c.Legal) (k : RateClass) (n : Nat) : n ≤ ticks c k n :=
  (ticks_strictMono hlegal k).le_apply

/-- Settles O20: all three parts follow from the step from one index to the next. -/
theorem dueTimesIncrease : Obligations.DueTimesIncrease := by
  intro c k m n hlegal
  have hmono := ticks_strictMono hlegal k
  exact ⟨fun hle => hmono.monotone hle, fun hlt => hmono hlt, le_ticks hlegal k n⟩

/-! ### The stages -/

/-- No division by zero (R153). -/
theorem one_le_rateDen (hlegal : c.Legal) (k : RateClass) : 1 ≤ (rateDen c k).toNat := by
  rw [rateDen_toNat hlegal]
  cases k with
  | sidereal => exact hlegal.1
  | fast => exact le_rfl

/-- In class fast the divisor is 1, so the quotient is the product (R153); no configuration is needed for it. -/
@[simp] theorem stageDivide_rateDen_fast (c : Config) (prod : Wide) : stageDivide prod (rateDen c .fast) = prod := by
  have hone : (rateDen c .fast).toNat = 1 := rfl
  apply BitVec.eq_of_toNat_eq
  rw [stageDivide_toNat, hone, Nat.div_one]

/-- Settles O21: one lemma a stage, and the divisor's two facts. -/
theorem pipelineStagesAreExact : Obligations.PipelineStagesAreExact :=
  ⟨stageIndex_toNat, fun _ _ hindex => stageMultiply_toNat hindex, stageDivide_toNat,
    fun _ k hlegal => one_le_rateDen hlegal k, stageDivide_rateDen_fast, stageCompare_iff⟩

end Sys2Proof.Machine
end

section
/-! The TrackerStateMachine's mode (spec/42_trackerstatemachine.md R180 to R191): what step 1 and each cause of steps 2 to 5
make of it, composed to the transition table. -/

namespace Sys2Proof.Machine

open Sys2Proof.Statement

/-! ### Whose turn it is -/

/-- The RCB's turn as the statements know it is the model's: only the agenda has moved on. -/
theorem step_of_rcbHasTurn {s : State} (hlegal : s.cfg.Legal) (hturn : RcbHasTurn s) :
    step s = rcbTurn { s with agenda := agendaAfterTurn s.agenda } := by
  obtain ⟨hport, hagenda⟩ := hturn
  have hkept (h : agendaAfterTurn s.agenda = s.agenda) : { s with agenda := agendaAfterTurn s.agenda } = s := by rw [h]
  rw [step, if_pos hlegal, agentTurn_agenda hport]
  obtain hnil | ⟨rest, hwake⟩ | ⟨c, rest, hpush, hfull⟩ := hagenda
  · rw [hkept (by rw [hnil]; rfl), hnil]
  · rw [hwake]
    rfl
  · rw [hkept (by rw [hpush]; rfl), hpush]
    exact if_pos ((fifoFull_iff s).mpr hfull)

/-! ### The direction follows the mode (R47 (b), R172) -/

theorem transition_direction {s : State} (hdir : s.direction = canon s.mode) (m : Mode) :
    (transition m s).direction = canon m := by
  by_cases h : m = s.mode
  · rw [transition_self h, hdir, h]
  · rw [transition_of_ne h]
    rfl

theorem forceStop_direction {s : State} (hdir : s.direction = canon s.mode) (e : Event) (x : Tone) :
    (forceStop e x s).direction = canon .stopped :=
  transition_direction hdir .stopped

theorem canon_eq_forward_iff (m : Mode) :
    canon m = .forward ↔ m = .tracking ∨ m = .fastForward ∨ m = .homingFound ∨ m = .homingQuitting := by
  cases m <;> decide

/-! ### Step 1 -/

/-- The mode step 1 leads to: the token's target, or with an empty FIFO the mode it is in. -/
def dispatchedMode (homing : Bool) : Option Token → Mode → Mode
  | none, m => m
  | some c, m => tokenTarget homing c m

/-- What step 1 makes of a state, as far as the later causes look at it. -/
structure Dispatched (c : Option Token) (s t : State) : Prop where
  mode : t.mode = dispatchedMode s.cfg.homing c s.mode
  cfg : t.cfg = s.cfg
  pos : t.pos = s.pos
  swPrev : t.swPrev = s.swPrev
  direction_canon : s.direction = canon s.mode → t.direction = canon t.mode

theorem Dispatched.of_transition {c : Token} {s : State} {m : Mode} (h : tokenTarget s.cfg.homing c s.mode = m) :
    Dispatched (some c) s (transition m s) where
  mode := (transition_mode m s).trans h.symm
  cfg := transition_cfg m s
  pos := transition_pos m s
  swPrev := transition_swPrev m s
  direction_canon hdir := by rw [transition_mode, transition_direction hdir]

/-- The token columns of the table (R191, R217), token by token. -/
theorem exec_token_dispatched (c : Token) (s : State) :
    ∃ t, exec (decodeCmd s.cfg.homing c) s = .next t ∧ Dispatched (some c) s t := by
  unfold decodeCmd
  split_ifs with hs hp ht hf hd hr
  · exact ⟨_, rfl, .of_transition (by simp [tokenTarget, hs])⟩
  · exact ⟨_, rfl, .of_transition (by simp [tokenTarget, hp])⟩
  · exact ⟨_, rfl, .of_transition (by simp [tokenTarget, ht])⟩
  · exact ⟨_, rfl, .of_transition (by simp [tokenTarget, hf])⟩
  · exact ⟨_, rfl, by simp [dispatchedMode, tokenTarget, hd], rfl, rfl, rfl, id⟩
  · exact ⟨_, if_pos hr.2, .of_transition (by simp [tokenTarget, hr])⟩
  · exact ⟨_, rfl, by simp [dispatchedMode, tokenTarget, hs, hp, ht, hf, hr], rfl, rfl, rfl, id⟩

theorem dispatched_of_dispatchToken {c : Option Token} {s t : State} (h : dispatchToken c s = .next t) :
    Dispatched c s t := by
  cases c with
  | none =>
    cases h
    exact ⟨rfl, rfl, rfl, rfl, id⟩
  | some x =>
    obtain ⟨u, hu, hdispatched⟩ := exec_token_dispatched x s
    cases hu.symm.trans h
    exact hdispatched

/-! ### Steps 2 to 5: what each makes of the mode and leaves of the rest -/

section Causes

variable (b : Bool) (s : State)

theorem switchFound_mode : (switchFound b s).mode =
    if s.cfg.homing = true ∧ s.mode = .rewind ∧ s.swPrev = false ∧ b = true then .homingFound else s.mode := by
  simp only [switchFound, swRise_iff]
  split_ifs
  · exact transition_mode _ _
  · rfl

@[simp] theorem switchFound_cfg : (switchFound b s).cfg = s.cfg := by
  obtain ⟨h, -⟩ | ⟨h, -⟩ := switchFound_cases b s <;> simp [h]

@[simp] theorem switchFound_pos : (switchFound b s).pos = s.pos := by
  obtain ⟨h, -⟩ | ⟨h, -⟩ := switchFound_cases b s <;> simp [h]

@[simp] theorem switchFound_swPrev : (switchFound b s).swPrev = s.swPrev := by
  obtain ⟨h, -⟩ | ⟨h, -⟩ := switchFound_cases b s <;> simp [h]

theorem switchReleased_mode : (switchReleased b s).mode =
    if s.cfg.homing = true ∧ s.mode = .homingFound ∧ s.swPrev = true ∧ b = false then .homingQuitting else s.mode := by
  simp only [switchReleased, swFall_iff]
  split_ifs
  · exact transition_mode _ _
  · rfl

@[simp] theorem switchReleased_cfg : (switchReleased b s).cfg = s.cfg := by
  obtain ⟨h, -⟩ | ⟨h, -⟩ := switchReleased_cases b s <;> simp [h]

theorem homingEnd_mode : (homingEnd s).mode =
    if s.cfg.homing = true ∧ s.mode = .homingQuitting ∧ 0 ≤ s.pos.toInt then .stopped else s.mode := by
  simp only [homingEnd, homeReached_iff]
  split_ifs
  · exact forceStop_mode _ _ _
  · rfl

@[simp] theorem homingEnd_cfg : (homingEnd s).cfg = s.cfg := by
  obtain ⟨h, -⟩ | ⟨h, -⟩ := homingEnd_cases s <;> simp [h]

@[simp] theorem homingEnd_pos : (homingEnd s).pos = s.pos := by
  obtain ⟨h, -⟩ | ⟨h, -⟩ := homingEnd_cases s <;> simp [h]

variable {b s}

/-- The snapshot fits the register in a legal configuration (R161 (d), R184). -/
theorem negQuitOffset_toInt {c : Config} (hlegal : c.Legal) : (negQuitOffset c).toInt = -(c.quitOffset : Int) := by
  obtain ⟨-, -, -, -, -, -, -, hquit, -⟩ := hlegal
  exact toInt_ofInt_of_range (by omega) (by omega)

theorem switchReleased_pos_toInt (hlegal : s.cfg.Legal) : (switchReleased b s).pos.toInt =
    if s.cfg.homing = true ∧ s.mode = .homingFound ∧ s.swPrev = true ∧ b = false then -(s.cfg.quitOffset : Int)
    else s.pos.toInt := by
  simp only [switchReleased, swFall_iff]
  split_ifs
  · rw [transition_pos, negQuitOffset_toInt hlegal]
  · rfl

theorem switchFound_direction (hdir : s.direction = canon s.mode) :
    (switchFound b s).direction = canon (switchFound b s).mode := by
  obtain ⟨h, -⟩ | ⟨h, -⟩ := switchFound_cases b s
  · rw [h, transition_mode, transition_direction hdir]
  · rwa [h]

theorem switchReleased_direction (hdir : s.direction = canon s.mode) :
    (switchReleased b s).direction = canon (switchReleased b s).mode := by
  obtain ⟨h, -⟩ | ⟨h, -⟩ := switchReleased_cases b s
  · rw [h, transition_mode]
    exact transition_direction (s := { s with pos := negQuitOffset s.cfg }) hdir .homingQuitting
  · rwa [h]

theorem homingEnd_direction (hdir : s.direction = canon s.mode) :
    (homingEnd s).direction = canon (homingEnd s).mode := by
  obtain ⟨h, -⟩ | ⟨h, -⟩ := homingEnd_cases s
  · rw [h, forceStop_mode, forceStop_direction hdir]
  · rwa [h]

/-- The limit is tested in the modes whose canonical direction is forward. -/
theorem travelStop_mode (hdir : s.direction = canon s.mode) : (travelStop s).mode =
    if s.cfg.boundsCheck = true ∧
        (s.mode = .tracking ∨ s.mode = .fastForward ∨ s.mode = .homingFound ∨ s.mode = .homingQuitting) ∧
        (s.cfg.travelLimit : Int) < s.pos.toInt then .stopped
    else s.mode := by
  simp only [travelStop, movingForward_iff, overLimit_iff, hdir, canon_eq_forward_iff]
  split_ifs
  · exact forceStop_mode _ _ _
  · rfl

/-- The causes of steps 2 to 5 in their order are the table's columns without a token: each reads what the one before left. -/
theorem causes_mode (hlegal : s.cfg.Legal) (hdir : s.direction = canon s.mode) :
    (travelStop (homingEnd (switchReleased b (switchFound b s)))).mode =
      tableMode s.cfg none s.swPrev b s.pos.toInt s.mode := by
  have hfound : (switchFound b s).cfg.Legal := by rwa [switchFound_cfg]
  rw [travelStop_mode (homingEnd_direction (switchReleased_direction (switchFound_direction hdir)))]
  simp only [homingEnd_mode, homingEnd_cfg, homingEnd_pos, switchReleased_mode, switchReleased_cfg,
    switchReleased_pos_toInt hfound, switchFound_mode, switchFound_cfg, switchFound_pos, switchFound_swPrev, tableMode]

end Causes

/-! ### Step 6 and the end -/

theorem mode_of_ssqStep {d : Int} {s t : State} (h : ssqStep d s = .next t) : t.mode = s.mode := by
  rw [(movedBy_of_ssqStep h).frame]

/-- The due step moves the motor and counts; the mode is none of its business (R187). -/
theorem mode_of_dueStep {s t : State} (h : dueStep s = .next t) : t.mode = s.mode := by
  obtain ⟨hnone, -⟩ | ⟨-, -, hdue⟩ := dueStep_cases s
  · cases hnone.symm.trans h
    rfl
  · obtain ⟨u, hstep, hcount⟩ := andThen_eq_next.mp (hdue.symm.trans h)
    obtain ⟨hcounted, -⟩ | ⟨hfault, -⟩ := countStep_cases u
    · cases hcounted.symm.trans hcount
      exact (mode_of_ssqStep hstep :)
    · cases hfault.symm.trans hcount

theorem mode_of_afterDispatch {b : Bool} {s t : State} (h : afterDispatch b s = .next t) :
    t.mode = (travelStop (homingEnd (switchReleased b (switchFound b s)))).mode := by
  obtain ⟨u, hdue, hend⟩ := andThen_eq_next.mp h
  cases hend
  rw [endIteration_mode, mode_of_dueStep hdue]

/-! ### The transition table -/

/-- The table sees the token only through the mode that step 1 leads to. -/
theorem tableMode_eq_of_dispatchedMode (c : Config) (token : Option Token) (swPrev sw : Bool) (pos : Int) (m : Mode) :
    tableMode c token swPrev sw pos m = tableMode c none swPrev sw pos (dispatchedMode c.homing token m) := by
  cases token <;> rfl

theorem mode_of_iteration {s t : State} (hlegal : s.cfg.Legal) (hdir : s.direction = canon s.mode)
    (h : iteration s = .next t) : t.mode = tableMode s.cfg s.fifo.head? s.swPrev s.sw s.pos.toInt s.mode := by
  obtain ⟨u, hdispatch, hrest⟩ := andThen_eq_next.mp ((iteration_eq s).symm.trans h)
  have hu := dispatched_of_dispatchToken hdispatch
  have hmode : u.mode = dispatchedMode s.cfg.homing s.fifo.head? s.mode := hu.mode
  have hcfg : u.cfg = s.cfg := hu.cfg
  have hpos : u.pos = s.pos := hu.pos
  have hswPrev : u.swPrev = s.swPrev := hu.swPrev
  rw [mode_of_afterDispatch hrest, causes_mode (hcfg ▸ hlegal) (hu.direction_canon hdir), hcfg, hpos, hswPrev, hmode,
    ← tableMode_eq_of_dispatchedMode]

/-- The table's row `Stopped` with no token: no cause applies, whatever the switch and the position. -/
theorem tableMode_stopped (c : Config) (swPrev sw : Bool) (pos : Int) :
    tableMode c none swPrev sw pos .stopped = .stopped := by
  simp [tableMode]

theorem mode_of_rcbTurn {s t : State} (hlegal : s.cfg.Legal) (hdir : s.direction = canon s.mode)
    (h : rcbTurn s = .next t) : t.mode = tableMode s.cfg s.fifo.head? s.swPrev s.sw s.pos.toInt s.mode := by
  obtain ⟨-, hturn⟩ | ⟨hheld, hturn⟩ := rcbTurn_cases s
  · exact mode_of_iteration hlegal hdir (hturn.symm.trans h)
  · cases hturn.symm.trans h
    obtain ⟨hfifo, hmode⟩ : s.fifo = [] ∧ s.mode = .stopped := by
      simpa [enabled_iff] using (Bool.eq_false_iff.mp hheld)
    rw [hfifo, hmode]
    exact (tableMode_stopped _ _ _ _).symm

/-- Settles O34: the turn is an iteration or held, and an iteration composes step 1 with the causes of steps 2 to 5. -/
theorem modeFollowsTheTransitionTable : Obligations.ModeFollowsTheTransitionTable := by
  intro s t hinv hturn h
  rw [step_of_rcbHasTurn hinv.legal hturn] at h
  exact mode_of_rcbTurn (s := { s with agenda := agendaAfterTurn s.agenda }) hinv.legal hinv.direction_canon h

end Sys2Proof.Machine
end

section
/-! The toggle token `d` (spec/43_commands.md R215): what it writes, for either sign, and that it undoes itself. -/

namespace Sys2Proof.Machine

open Sys2Proof.Statement

@[simp] theorem signFlip_signFlip (g : Sign) : signFlip (signFlip g) = g := by
  cases g <;> rfl

@[simp] theorem toggled_ddir (s : State) : (toggled s).ddir = signFlip s.ddir := rfl

/-- The writes of a toggle with the new sign named: `ddir`, and the request of that sign's scale (R84, R102). -/
theorem toggled_of_signFlip {s : State} {g : Sign} (h : signFlip s.ddir = g) :
    toggled s = { s with ddir := g, outputs := s.outputs ++ [.tone (scaleOf g)], toneBox := some (scaleOf g) } := by
  subst h
  rfl

theorem execAll_cmdD_cmdD (s : State) : execAll [.cmdD, .cmdD] s = .next (toggled (toggled s)) := rfl

theorem decodeCmd_toggle (homing : Bool) : decodeCmd homing 0x64#8 = .cmdD := by
  simp [decodeCmd]

/-- Settles O13: the writes are said once for the new sign, and flipping the sign twice gives it back. -/
theorem toggleIsAnInvolution : Obligations.ToggleIsAnInvolution := by
  refine ⟨decodeCmd_toggle, fun s => ⟨fun hplus => ?_, fun hminus => ?_, ?_⟩⟩
  · have hnew : signFlip s.ddir = .minus := congrArg signFlip hplus
    rw [exec_cmdD, toggled_of_signFlip hnew, scaleOf]
  · have hnew : signFlip s.ddir = .plus := congrArg signFlip hminus
    rw [exec_cmdD, toggled_of_signFlip hnew, scaleOf]
  · have htwice : (toggled (toggled s)).ddir = s.ddir := by simp only [toggled_ddir, signFlip_signFlip]
    exact ⟨toggled (toggled s), execAll_cmdD_cmdD s, htwice⟩

end Sys2Proof.Machine
end

section
/-! The tick source's `TickAdvance(k)` (spec/60_exceptions.md R253): the step of an advance counts exactly, or it faults. -/

namespace Sys2Proof.Machine

/-- The step of an advance is the operation itself, on the state whose records are cleared and whose agenda has moved on. -/
theorem step_of_tickAdvance {s : State} {k : Nat} {rest : List AgentStep} (hlegal : s.cfg.Legal) (hport : s.seqPort = none)
    (hagenda : s.agenda = .tickAdvance k :: rest) :
    step s = tickAdvance k (clearRecords { s with agenda := rest }) := by
  rw [step, if_pos hlegal, agentTurn_agenda hport, hagenda]

/-- Settles O40: the operation's two cases, split at 2^32; below it the sum is its own residue as a 32 bit word. -/
theorem tickAdvanceCountsOrFaults : Obligations.TickAdvanceCountsOrFaults := by
  intro s k rest hlegal hport hagenda
  rw [step_of_tickAdvance hlegal hport hagenda]
  constructor
  · intro hfits
    have hexact : (BitVec.ofNat 32 (s.tickNow.toNat + k)).toNat = s.tickNow.toNat + k := by
      rw [BitVec.toNat_ofNat, Nat.mod_eq_of_lt hfits]
    exact ⟨_, hexact, tickAdvance_of_le (Nat.le_of_lt_succ hfits)⟩
  · intro hpast
    exact tickAdvance_of_gt (Nat.lt_of_succ_le hpast)

end Sys2Proof.Machine
end

section
/-! The encodings (spec/30_encoding.md R90 to R97): the encoder is the decoder's inverse in every build. -/

namespace Sys2Proof

/-- Every instruction of a build decodes from its own code: the laws of Sys2Proof/Laws/PerInstr.lean put together. -/
theorem decode_encode (i : Instr) : Laws.RoundTrip.Statement i := by
  cases i with
  | cmdS => exact Laws.RoundTrip.cmdS
  | cmdP => exact Laws.RoundTrip.cmdP
  | cmdT => exact Laws.RoundTrip.cmdT
  | cmdF => exact Laws.RoundTrip.cmdF
  | cmdR => exact Laws.RoundTrip.cmdR
  | cmdD => exact Laws.RoundTrip.cmdD
  | cmdUnrec c => exact Laws.RoundTrip.cmdUnrec c
  | stepFwd => exact Laws.RoundTrip.stepFwd
  | stepRev => exact Laws.RoundTrip.stepRev
  | stepNull => exact Laws.RoundTrip.stepNull
  | stop x => exact Laws.RoundTrip.stop x
  | seqReserved => exact Laws.RoundTrip.seqReserved

/-- No bit of a token is dropped (R91, R92). -/
theorem encode_decodeCmd (homing : Bool) (c : Token) : encode (decodeCmd homing c) = .cmd c := by
  unfold decodeCmd
  split_ifs with hs hp ht hf hd hr
  · rw [hs, encode]
  · rw [hp, encode]
  · rw [ht, encode]
  · rw [hf, encode]
  · rw [hd, encode]
  · rw [hr.1, encode]
  · rw [encode]

/-- No bit of a sequencer word is dropped, the ignored `dir` bits of `STOP` among them (R96, R97): the eight words. -/
theorem encode_decodeSeq (w : SeqWord) : encode (decodeSeq w) = .seq w := by
  revert w
  decide

theorem encode_decode (homing : Bool) (c : Code) : encode (decode homing c) = c := by
  cases c with
  | cmd t => exact encode_decodeCmd homing t
  | seq w => exact encode_decodeSeq w

/-- What a token decodes to exists in the build: `CMD_R` is read with homing only, `CMD_UNREC` outside the alphabet (R92,
R95). -/
theorem wf_decodeCmd (homing : Bool) (c : Token) : (decodeCmd homing c).wf homing = true := by
  unfold decodeCmd
  split_ifs with hs hp ht hf hd hr
  · rfl
  · rfl
  · rfl
  · rfl
  · rfl
  · exact hr.2
  · have houtside : inAlphabet homing c = false := by
      simp only [inAlphabet, Bool.or_eq_false_iff, Bool.and_eq_false_iff, beq_eq_false_iff_ne]
      have hr' : homing = false ∨ c ≠ 0x72#8 := by
        rw [← Bool.not_eq_true]
        tauto
      exact ⟨⟨⟨⟨⟨hs, hp⟩, ht⟩, hf⟩, hd⟩, hr'⟩
    rw [Instr.wf, houtside, Bool.not_false]

/-- `0b010` is the one reserved word of the eight (R97). -/
theorem decodeSeq_eq_seqReserved_iff (w : SeqWord) : decodeSeq w = .seqReserved ↔ w = 0b010#3 := by
  revert w
  decide

theorem wf_decodeSeq (homing : Bool) (w : SeqWord) : (decodeSeq w).wf homing = true ∨ w = 0b010#3 := by
  revert homing w
  decide

/-- Settles O17: the three parts, each by the format of the code. -/
theorem decodeAndEncodeAgree : Obligations.DecodeAndEncodeAgree := by
  refine fun homing => ⟨fun i => decode_encode i homing, encode_decode homing, fun c => ?_⟩
  cases c with
  | cmd t => exact .inl (wf_decodeCmd homing t)
  | seq w => exact (wf_decodeSeq homing w).imp_right (congrArg Code.seq)

/-- Settles O5: the decoder's eighth word, and the arm of `exec` that refuses it by name. -/
theorem reservedWordIsRefused : Obligations.ReservedWordIsRefused :=
  ⟨decodeSeq_eq_seqReserved_iff, fun _ => rfl⟩

/-- Settles O16: fifteen closed words, each decoded. -/
theorem tableWordsDecode : Obligations.TableWordsDecode := by
  unfold Obligations.TableWordsDecode
  decide

end Sys2Proof
end

section
/-! One instruction at a time: the command tokens (spec/43_commands.md R210 to R216), the null step and the coil ROM
(spec/40_stepsequencer.md R123, spec/20_memory.md R61, R77). -/

namespace Sys2Proof.Machine

open Sys2Proof.Statement

/-! ### The command tokens -/

/-- A transition writes what R171 lists, or is inert (R173): the statements' words for it. -/
theorem transition_eq_entered (m : Mode) (s : State) :
    transition m s = if s.mode = m then s else entered m (canon m) (ledOf m) s := by
  split_ifs with h
  · exact transition_self h.symm
  · exact transition_of_ne (Ne.symm h)

theorem exec_cmdUnrec (c : Token) (s : State) : exec (.cmdUnrec c) s = .next (diagnosed c s) := rfl

/-- Settles O9: both tokens are a transition to `Tracking`. -/
theorem startTokensEnterTracking : Obligations.StartTokensEnterTracking := fun s =>
  ⟨congrArg Host.Outcome.next (transition_eq_entered .tracking s),
    congrArg Host.Outcome.next (transition_eq_entered .tracking s)⟩

/-- Settles O10: the token is a transition to `Stopped`. -/
theorem stopTokenEntersStopped : Obligations.StopTokenEntersStopped := fun s =>
  congrArg Host.Outcome.next (transition_eq_entered .stopped s)

/-- Settles O11: the token is a transition to `FastForward`. -/
theorem fastForwardTokenEntersFastForward : Obligations.FastForwardTokenEntersFastForward := fun s =>
  congrArg Host.Outcome.next (transition_eq_entered .fastForward s)

theorem exec_cmdR_of_homing {s : State} (h : s.cfg.homing = true) : exec .cmdR s = .next (transition .rewind s) :=
  if_pos h

theorem exec_cmdR_of_not_homing {s : State} (h : s.cfg.homing = false) : exec .cmdR s = .next (diagnosed 0x72#8 s) :=
  if_neg (by simp [h])

/-- Settles O12: with homing a transition to `Rewind`, without it the diagnostic of the token `r`. -/
theorem rewindTokenNeedsHoming : Obligations.RewindTokenNeedsHoming := by
  refine fun s => ⟨fun hhoming => ?_, exec_cmdR_of_not_homing⟩
  exact (exec_cmdR_of_homing hhoming).trans (congrArg Host.Outcome.next (transition_eq_entered .rewind s))

/-- Settles O15: the diagnostic is all the token does. -/
theorem unrecognisedTokenIsDiagnosed : Obligations.UnrecognisedTokenIsDiagnosed := exec_cmdUnrec

/-! ### The null step -/

/-- Settles O3: `step(0)` is a move by no step, which is always in range and leaves the coil with the row of the phase. -/
theorem stepNullReenergises : Obligations.StepNullReenergises := by
  intro s
  obtain ⟨hmin, hmax⟩ := pos_range s.pos
  obtain ⟨t, hstep, hmove, hcoil⟩ := ssqStep_moves (d := 0) (s := s) (by omega) (by omega)
  have hpos : t.pos = s.pos := BitVec.eq_of_toInt_eq (by rw [hmove.pos, add_zero])
  have hframe := hmove.eq_of_dvd (dvd_zero 8) hcoil
  rw [hpos] at hframe
  rw [exec_stepNull, hstep, hframe]

/-! ### The coil ROM -/

/-- The topology bit splits the sixteen addresses at 8 (R61). -/
theorem getLsbD_three_iff (a : BitVec 4) : a.getLsbD 3 = true ↔ 8 ≤ a.toNat := by
  revert a
  decide

/-- The phase field of an address is the address modulo 8. -/
theorem extractLsb'_phase (a : BitVec 4) : a.extractLsb' 0 3 = BitVec.ofNat 3 a.toNat := by
  revert a
  decide

theorem ofNat_sub_eight {n : Nat} (h : 8 ≤ n) : BitVec.ofNat 3 (n - 8) = BitVec.ofNat 3 n := by
  apply BitVec.eq_of_toNat_eq
  simp only [BitVec.toNat_ofNat]
  omega

/-- Settles O8: the bit selects the table and the field the row. -/
theorem coilRomAddressing : Obligations.CoilRomAddressing := by
  refine fun c a => ⟨fun hlow => ?_, fun hhigh => ?_⟩
  · rw [coilRomRead, if_neg (by rw [getLsbD_three_iff]; omega), extractLsb'_phase]
  · rw [coilRomRead, if_pos ((getLsbD_three_iff a).mpr hhigh), extractLsb'_phase, ofNat_sub_eight hhigh]

end Sys2Proof.Machine
end

section
/-! `DUE` (spec/41_rateclock.md R145, R149): the pipeline's stages composed, and when no step can be due. -/

namespace Sys2Proof.Machine

variable {s : State} {k : RateClass}

/-- Stages P1 to P3 composed are the exact formula: no value leaves 64 bits in a legal configuration (R149). -/
theorem dueTime_toNat {c : Config} (hlegal : c.Legal) (k : RateClass) (w : Word) :
    (dueTime c k w).toNat = ticks c k (w.toNat + 1) := by
  have hw := w.isLt
  have hindex : (stageIndex w).toNat ≤ 4294967296 := by
    rw [stageIndex_toNat]
    omega
  rw [dueTime, stageDivide_toNat, stageMultiply_toNat hindex, stageIndex_toNat, rateNum_toNat hlegal, rateDen_toNat hlegal]
  cases k with
  | sidereal => rfl
  | fast => exact Nat.div_one _

/-- Stage P4 on the due time: the exact test (R145). -/
theorem due_iff (hlegal : s.cfg.Legal) (hk : rateClass s.mode = some k) :
    due s = true ↔ ticks s.cfg k (s.stepCount.toNat + 1) ≤ (s.tickNow - s.tickOrigin).toNat := by
  simp only [due, hk]
  rw [stageCompare_iff, dueTime_toNat hlegal]
  rfl

theorem due_eq_false_iff (hlegal : s.cfg.Legal) (hk : rateClass s.mode = some k) :
    due s = false ↔ (s.tickNow - s.tickOrigin).toNat < ticks s.cfg k (s.stepCount.toNat + 1) := by
  rw [← Bool.not_eq_true, due_iff hlegal hk, Nat.not_le]

/-- `Stopped` alone has no rate class (R98). -/
theorem rateClass_eq_none_iff (m : Mode) : rateClass m = none ↔ m = .stopped := by
  cases m <;> decide

theorem exists_rateClass_of_ne {m : Mode} (h : m ≠ .stopped) : ∃ k, rateClass m = some k :=
  Option.ne_none_iff_exists'.mp ((rateClass_eq_none_iff m).not.mpr h)

theorem ne_stopped_of_rateClass {m : Mode} (h : rateClass m = some k) : m ≠ .stopped := by
  rintro rfl
  cases h

theorem due_stopped (h : s.mode = .stopped) : due s = false := by
  simp only [due, h, rateClass]

theorem ne_stopped_of_due (hdue : due s = true) : s.mode ≠ .stopped := fun hstopped =>
  Bool.noConfusion (hdue.symm.trans (due_stopped hstopped))

/-- The step index is behind the elapsed time when a step is due: R147 makes the fault of `step_count` impossible. -/
theorem stepCount_lt_of_due (hlegal : s.cfg.Legal) (hdue : due s = true) :
    s.stepCount.toNat + 1 ≤ (s.tickNow - s.tickOrigin).toNat := by
  obtain ⟨k, hk⟩ := exists_rateClass_of_ne (ne_stopped_of_due hdue)
  exact (le_ticks hlegal k _).trans ((due_iff hlegal hk).mp hdue)

/-- Right after a transition no step is due: the first due time is at least one tick away (R146). -/
theorem due_eq_false_of_restart (hlegal : s.cfg.Legal) (hcount : s.stepCount = 0) (hnow : s.tickNow = 0)
    (horigin : s.tickOrigin = 0) : due s = false := by
  rw [← Bool.not_eq_true]
  intro hdue
  have hlt := stepCount_lt_of_due hlegal hdue
  simp [hcount, hnow, horigin] at hlt

/-- Settles O22: the composed stages, the comparison, and that an elapsed time is a 32 bit number. -/
theorem dueIsTheExactTest : Obligations.DueIsTheExactTest := by
  refine fun s k hlegal hk => ⟨dueTime_toNat hlegal k s.stepCount, due_iff hlegal hk, fun hfar => ?_,
    due_eq_false_of_restart hlegal⟩
  have helapsed := (s.tickNow - s.tickOrigin).isLt
  exact (due_eq_false_iff hlegal hk).mpr (by omega)

end Sys2Proof.Machine
end

section
/-! Whose step it is (spec/60_exceptions.md R256): everything one step can be, and the single agents' steps. -/

namespace Sys2Proof.Machine

open Sys2Proof.Statement

variable {s t : State}

/-- Settles O27: the check comes before every turn. -/
theorem illegalConfigurationIsRefused : Obligations.IllegalConfigurationIsRefused := fun _ hillegal => if_neg hillegal

theorem legal_of_step (h : step s = .next t) : s.cfg.Legal := by
  by_contra hillegal
  rw [illegalConfigurationIsRefused s hillegal] at h
  cases h

/-! ### The agents outside the RCB -/

section Agents

variable {c : Token} {k : Nat} {level : Bool} {rest : List AgentStep} (hlegal : s.cfg.Legal) (hport : s.seqPort = none)
include hlegal hport

theorem step_of_pushBlocking (hagenda : s.agenda = .pushBlocking c :: rest) (hroom : s.fifo.length < s.cfg.cmdDepth) :
    step s = .next (fifoAppend c (clearRecords { s with agenda := rest })) := by
  rw [step, if_pos hlegal, agentTurn_agenda hport, hagenda]
  exact if_neg (by simpa using hroom)

theorem step_of_pushNonBlocking (hagenda : s.agenda = .pushNonBlocking c :: rest) :
    step s = .next (fifoPushNonBlocking c (clearRecords { s with agenda := rest })) := by
  rw [step, if_pos hlegal, agentTurn_agenda hport, hagenda]

theorem step_of_setSwitch (hagenda : s.agenda = .setSwitch level :: rest) :
    step s = .next (clearRecords { s with sw := level, agenda := rest }) := by
  rw [step, if_pos hlegal, agentTurn_agenda hport, hagenda]

theorem step_of_boot (hagenda : s.agenda = .boot :: rest) : step s = .next (bootState { s with agenda := rest }) := by
  rw [step, if_pos hlegal, agentTurn_agenda hport, hagenda]

end Agents

theorem fifoPushNonBlocking_of_room {c : Token} (h : s.fifo.length < s.cfg.cmdDepth) :
    fifoPushNonBlocking c s = fifoAppend c s :=
  if_neg (by simpa using h)

theorem fifoPushNonBlocking_of_full {c : Token} (h : s.cfg.cmdDepth ≤ s.fifo.length) :
    fifoPushNonBlocking c s = raiseEvent .cmdDropped s :=
  if_pos ((fifoFull_iff s).mpr h)

/-- Settles O39: the two cases of the operation, on the state whose records are cleared. -/
theorem nonBlockingPushDropsWhenFull : Obligations.NonBlockingPushDropsWhenFull := by
  intro s c rest hlegal hport hagenda
  rw [step_of_pushNonBlocking hlegal hport hagenda]
  exact ⟨fun hroom => congrArg Host.Outcome.next (fifoPushNonBlocking_of_room hroom),
    fun hfull => congrArg Host.Outcome.next (fifoPushNonBlocking_of_full hfull)⟩

/-- Settles O41: the level, the agenda and the records are all the step writes. -/
theorem switchStepSetsTheLevel : Obligations.SwitchStepSetsTheLevel := fun _ _ _ hlegal hport hagenda =>
  step_of_setSwitch hlegal hport hagenda

/-- A boot with nothing at the port, as the writes it makes (R43, R270). -/
theorem bootState_of_port_empty (hport : s.seqPort = none) : bootState s =
    { s with
      mode := .stopped, direction := .none, pos := 0, ddir := s.cfg.defdirReset, phase := 0, coil := 0, stepCount := 0
      tickOrigin := 0, swPrev := false, fifo := [], outputs := [], events := [] } := by
  rw [hport]
  rfl

/-- Settles O42: the boot's writes, with the agenda moved on. -/
theorem bootLoadsTheResetValues : Obligations.BootLoadsTheResetValues := by
  intro s rest hlegal hport hagenda
  rw [step_of_boot hlegal hport hagenda, bootState_of_port_empty (s := { s with agenda := rest }) hport]

/-! ### Everything a step can be -/

/-- The step of an agent outside: a token at the end of the FIFO or dropped, later ticks, another switch level; the rest of
the state is kept and the records hold at most a dropped command. -/
structure OutsideStep (s t : State) : Prop where
  frame : t = { s with
    fifo := t.fifo, tickNow := t.tickNow, sw := t.sw, agenda := t.agenda, outputs := [], events := t.events }
  ticks : s.tickNow.toNat ≤ t.tickNow.toNat
  fifo : t.fifo = s.fifo ∨ ∃ c, t.fifo = s.fifo ++ [c] ∧ s.fifo.length < s.cfg.cmdDepth
  events : t.events = [] ∨ t.events = [.cmdDropped]

/-- A push that has room, of either kind. -/
theorem outsideStep_append {c : Token} {rest : List AgentStep} (hroom : s.fifo.length < s.cfg.cmdDepth) :
    OutsideStep s (fifoAppend c (clearRecords { s with agenda := rest })) where
  frame := rfl
  ticks := le_rfl
  fifo := .inr ⟨c, rfl, hroom⟩
  events := .inl rfl

/-- With nothing at the port, a step is the RCB's turn, a boot, an advance past the top of the tick source, or the step of
another agent outside, which completes (R256). -/
theorem step_outcomes (hlegal : s.cfg.Legal) (hport : s.seqPort = none) :
    (RcbHasTurn s ∧ step s = rcbTurn { s with agenda := agendaAfterTurn s.agenda }) ∨
    (∃ rest, s.agenda = .boot :: rest ∧ step s = .next (bootState { s with agenda := rest })) ∨
    (∃ k rest, s.agenda = .tickAdvance k :: rest ∧ 4294967296 ≤ s.tickNow.toNat + k ∧ step s = .fault .tickOverflow) ∨
    ∃ t, step s = .next t ∧ OutsideStep s t := by
  have hrcb (h : RcbHasTurn s) :
      RcbHasTurn s ∧ step s = rcbTurn { s with agenda := agendaAfterTurn s.agenda } :=
    ⟨h, step_of_rcbHasTurn hlegal h⟩
  rcases hagenda : s.agenda with _ | ⟨a, rest⟩
  · exact .inl (hagenda ▸ hrcb ⟨hport, .inl hagenda⟩)
  cases a with
  | wake => exact .inl (hagenda ▸ hrcb ⟨hport, .inr (.inl ⟨rest, hagenda⟩)⟩)
  | boot => exact .inr (.inl ⟨rest, rfl, step_of_boot hlegal hport hagenda⟩)
  | setSwitch level =>
    exact .inr (.inr (.inr ⟨_, step_of_setSwitch hlegal hport hagenda, rfl, le_rfl, .inl rfl, .inl rfl⟩))
  | pushBlocking c =>
    by_cases hroom : s.fifo.length < s.cfg.cmdDepth
    · exact .inr (.inr (.inr ⟨_, step_of_pushBlocking hlegal hport hagenda hroom, outsideStep_append hroom⟩))
    · exact .inl (hagenda ▸ hrcb ⟨hport, .inr (.inr ⟨c, rest, hagenda, Nat.le_of_not_lt hroom⟩)⟩)
  | pushNonBlocking c =>
    obtain ⟨hadd, hdrop⟩ := nonBlockingPushDropsWhenFull s c rest hlegal hport hagenda
    by_cases hroom : s.fifo.length < s.cfg.cmdDepth
    · exact .inr (.inr (.inr ⟨_, hadd hroom, outsideStep_append hroom⟩))
    · exact .inr (.inr (.inr ⟨_, hdrop (Nat.le_of_not_lt hroom), rfl, le_rfl, .inl rfl, .inr rfl⟩))
  | tickAdvance k =>
    obtain ⟨hfits, hpast⟩ := tickAdvanceCountsOrFaults s k rest hlegal hport hagenda
    by_cases hle : s.tickNow.toNat + k < 4294967296
    · obtain ⟨v, hv, hstep⟩ := hfits hle
      exact .inr (.inr (.inr ⟨_, hstep, rfl, by simp [hv], .inl rfl, .inl rfl⟩))
    · exact .inr (.inr (.inl ⟨k, rest, rfl, by omega, hpast (by omega)⟩))

end Sys2Proof.Machine
end

section
/-! The RCB's turn (spec/42_trackerstatemachine.md R180 to R188): steps 1 to 5 always complete and only keep or restart the
timing; step 6 is the only one that moves the motor and the only one that can fault. -/

namespace Sys2Proof.Machine

open Sys2Proof.Statement

variable {s t u : State}

/-! ### The turn's first step -/

theorem rcbTurn_of_enabled (h : s.fifo ≠ [] ∨ s.mode ≠ .stopped) : rcbTurn s = iteration s :=
  if_pos ((enabled_iff s).mpr h)

theorem rcbTurn_of_held (hfifo : s.fifo = []) (hmode : s.mode = .stopped) : rcbTurn s = .next s :=
  if_neg (by simp [enabled_iff, hfifo, hmode])

/-- A turn that is not held, whatever the FIFO holds: dispatch of the head, then steps 2 to 6 (R180). -/
theorem step_of_enabled (hlegal : s.cfg.Legal) (hturn : RcbHasTurn s) (henabled : s.fifo ≠ [] ∨ s.mode ≠ .stopped) :
    step s = andThen (dispatchToken s.fifo.head? { begun s with fifo := s.fifo.tail }) (afterDispatch s.sw) := by
  rw [step_of_rcbHasTurn hlegal hturn]
  exact (rcbTurn_of_enabled (s := { s with agenda := agendaAfterTurn s.agenda }) henabled).trans (iteration_eq _)

/-- A held turn (R181): only the agenda moves on. -/
theorem step_of_held (hlegal : s.cfg.Legal) (hturn : RcbHasTurn s) (hfifo : s.fifo = []) (hmode : s.mode = .stopped) :
    step s = .next { s with agenda := agendaAfterTurn s.agenda } := by
  rw [step_of_rcbHasTurn hlegal hturn]
  exact rcbTurn_of_held (s := { s with agenda := agendaAfterTurn s.agenda }) hfifo hmode

/-- Settles O23: an iteration is enabled by the token at the head. -/
theorem stepRunsTheHeadToken : Obligations.StepRunsTheHeadToken := by
  intro s c rest hlegal hturn hfifo
  rw [step_of_enabled hlegal hturn (.inl (by simp [hfifo])), hfifo]
  rfl

/-- Settles O24: an iteration is enabled by the mode, and has nothing to dispatch. -/
theorem stepWithoutATokenRunsTheTests : Obligations.StepWithoutATokenRunsTheTests := by
  intro s hlegal hturn hfifo hmode
  have hpopped : { begun s with fifo := s.fifo.tail } = begun s := by simp [begun, hfifo]
  rw [step_of_enabled hlegal hturn (.inr hmode), hpopped, hfifo]
  rfl

/-- Settles O25: the port goes before the agenda, and its turn is `exec` of the word. -/
theorem stepRunsThePortWord : Obligations.StepRunsThePortWord := by
  intro s w hlegal hport
  rw [step, if_pos hlegal, agentTurn_port hport]
  rfl

/-- Settles O26: no iteration is enabled. -/
theorem stoppedAndEmptyIsHeld : Obligations.StoppedAndEmptyIsHeld := fun _ => step_of_held

/-! ### Steps 1 to 5: what they keep, and what they do to the timing -/

/-- Mode and timing are as they were, and the motor is. -/
structure TimingKept (s t : State) : Prop where
  mode : t.mode = s.mode
  direction : t.direction = s.direction
  pos : t.pos = s.pos
  coil : t.coil = s.coil
  stepCount : t.stepCount = s.stepCount
  tickOrigin : t.tickOrigin = s.tickOrigin
  tickNow : t.tickNow = s.tickNow
  ledBox : t.ledBox = s.ledBox

/-- The state shows a transition that no step has followed (R171, R175). -/
structure Restarted (t : State) : Prop where
  coil : t.coil = 0
  stepCount : t.stepCount = 0
  tickNow : t.tickNow = 0
  tickOrigin : t.tickOrigin = 0
  direction : t.direction = canon t.mode
  ledBox : t.ledBox = some (ledOf t.mode)
  tickRst_mem : Output.tickRst ∈ t.outputs
  led_mem : Output.led (ledOf t.mode) ∈ t.outputs

/-- What steps 1 to 5 can do between them: the fields they never write, records that grow without E4 and E6 (R233, R235), and
a timing that is kept or restarted. -/
structure Steered (s t : State) : Prop where
  cfg : t.cfg = s.cfg
  phase : t.phase = s.phase
  swPrev : t.swPrev = s.swPrev
  fifo : t.fifo = s.fifo
  sw : t.sw = s.sw
  seqPort : t.seqPort = s.seqPort
  agenda : t.agenda = s.agenda
  outputs : s.outputs ⊆ t.outputs
  events : ∀ e ∈ t.events, e ∈ s.events ∨ e ≠ .homingStall ∧ e ≠ .arithOverflow
  timing : TimingKept s t ∨ Restarted t

theorem TimingKept.refl (s : State) : TimingKept s s := ⟨rfl, rfl, rfl, rfl, rfl, rfl, rfl, rfl⟩

theorem TimingKept.trans (h : TimingKept s t) (h' : TimingKept t u) : TimingKept s u where
  mode := h'.mode.trans h.mode
  direction := h'.direction.trans h.direction
  pos := h'.pos.trans h.pos
  coil := h'.coil.trans h.coil
  stepCount := h'.stepCount.trans h.stepCount
  tickOrigin := h'.tickOrigin.trans h.tickOrigin
  tickNow := h'.tickNow.trans h.tickNow
  ledBox := h'.ledBox.trans h.ledBox

theorem Restarted.of_timingKept (h : Restarted t) (hkept : TimingKept t u) (houtputs : t.outputs ⊆ u.outputs) :
    Restarted u where
  coil := hkept.coil.trans h.coil
  stepCount := hkept.stepCount.trans h.stepCount
  tickNow := hkept.tickNow.trans h.tickNow
  tickOrigin := hkept.tickOrigin.trans h.tickOrigin
  direction := by rw [hkept.direction, hkept.mode, h.direction]
  ledBox := by rw [hkept.ledBox, hkept.mode, h.ledBox]
  tickRst_mem := houtputs h.tickRst_mem
  led_mem := hkept.mode ▸ houtputs h.led_mem

theorem Restarted.due_eq_false (h : Restarted t) (hlegal : t.cfg.Legal) : due t = false :=
  due_eq_false_of_restart hlegal h.stepCount h.tickNow h.tickOrigin

theorem restarted_transitioned (m : Mode) (s : State) : Restarted (transitioned m s) where
  coil := rfl
  stepCount := rfl
  tickNow := rfl
  tickOrigin := rfl
  direction := rfl
  ledBox := rfl
  tickRst_mem := by simp [transitioned]
  led_mem := by simp [transitioned]

namespace Steered

theorem refl (s : State) : Steered s s :=
  ⟨rfl, rfl, rfl, rfl, rfl, rfl, rfl, List.Subset.refl _, fun _ he => .inl he, .inl (.refl s)⟩

theorem trans (h : Steered s t) (h' : Steered t u) : Steered s u where
  cfg := h'.cfg.trans h.cfg
  phase := h'.phase.trans h.phase
  swPrev := h'.swPrev.trans h.swPrev
  fifo := h'.fifo.trans h.fifo
  sw := h'.sw.trans h.sw
  seqPort := h'.seqPort.trans h.seqPort
  agenda := h'.agenda.trans h.agenda
  outputs := List.Subset.trans h.outputs h'.outputs
  events e he := (h'.events e he).elim (h.events e) .inr
  timing := by
    obtain hkept' | hrestarted' := h'.timing
    · exact h.timing.imp (·.trans hkept') (·.of_timingKept hkept' h'.outputs)
    · exact .inr hrestarted'

theorem mode_eq_or_restarted (h : Steered s t) : t.mode = s.mode ∨ Restarted t :=
  h.timing.imp_left (·.mode)

theorem timingKept_of_due (h : Steered s t) (hlegal : s.cfg.Legal) (hdue : due t = true) : TimingKept s t := by
  refine h.timing.resolve_right fun hrestarted => ?_
  rw [hrestarted.due_eq_false (h.cfg ▸ hlegal)] at hdue
  cases hdue

end Steered

/-- A change of mode, whatever becomes of the position (the snapshot of R184 precedes its transition). -/
theorem steered_transitioned (m : Mode) (p : Word) (s : State) : Steered s (transitioned m { s with pos := p }) where
  cfg := rfl
  phase := rfl
  swPrev := rfl
  fifo := rfl
  sw := rfl
  seqPort := rfl
  agenda := rfl
  outputs := List.subset_append_left _ _
  events _ he := .inl he
  timing := .inr (restarted_transitioned _ _)

theorem steered_transition (m : Mode) (s : State) : Steered s (transition m s) := by
  by_cases h : m = s.mode
  · rw [transition_self h]
    exact .refl s
  · rw [transition_of_ne h]
    exact steered_transitioned m s.pos s

theorem steered_toggled (s : State) : Steered s (toggled s) :=
  ⟨rfl, rfl, rfl, rfl, rfl, rfl, rfl, List.subset_append_left _ _, fun _ he => .inl he,
    .inl ⟨rfl, rfl, rfl, rfl, rfl, rfl, rfl, rfl⟩⟩

/-- Recording an event leaves the timing, and so does a request other than the LED's. -/
theorem steered_emit_raiseEvent {o : Output} {e : Event} (ho : (emit o (raiseEvent e s)).ledBox = s.ledBox)
    (he : e ≠ .homingStall ∧ e ≠ .arithOverflow) : Steered s (emit o (raiseEvent e s)) where
  cfg := rfl
  phase := rfl
  swPrev := rfl
  fifo := rfl
  sw := rfl
  seqPort := rfl
  agenda := rfl
  outputs := List.subset_append_left _ _
  events x hx := (List.mem_append.mp hx).imp_right fun hmem => by rwa [List.mem_singleton.mp hmem]
  timing := .inl ⟨rfl, rfl, rfl, rfl, rfl, rfl, rfl, ho⟩

theorem steered_forceStop {e : Event} (x : Tone) (he : e ≠ .homingStall ∧ e ≠ .arithOverflow) (s : State) :
    Steered s (forceStop e x s) :=
  (steered_transition .stopped s).trans (steered_emit_raiseEvent rfl he)

/-- Step 1 always completes (R92). -/
theorem dispatchToken_steered (c : Option Token) (s : State) : ∃ d, dispatchToken c s = .next d ∧ Steered s d := by
  obtain ⟨h, -⟩ | ⟨m, -, -, -, h⟩ | h | ⟨x, h⟩ := dispatchToken_cases c s
  · exact ⟨s, h, .refl s⟩
  · exact ⟨_, h, steered_transition m s⟩
  · exact ⟨_, h, steered_toggled s⟩
  · exact ⟨_, h, steered_emit_raiseEvent rfl (by simp)⟩

theorem steered_switchFound (b : Bool) (s : State) : Steered s (switchFound b s) := by
  obtain ⟨h, -⟩ | ⟨h, -⟩ := switchFound_cases b s
  · exact h ▸ steered_transition _ s
  · exact h.symm ▸ .refl s

theorem steered_switchReleased (b : Bool) (s : State) : Steered s (switchReleased b s) := by
  obtain ⟨h, -, hmode, -⟩ | ⟨h, -⟩ := switchReleased_cases b s
  · rw [h, transition_of_ne (by simp [hmode])]
    exact steered_transitioned _ _ s
  · exact h.symm ▸ .refl s

theorem steered_homingEnd (s : State) : Steered s (homingEnd s) := by
  obtain ⟨h, -⟩ | ⟨h, -⟩ := homingEnd_cases s
  · exact h ▸ steered_forceStop _ (by simp) s
  · exact h.symm ▸ .refl s

theorem steered_travelStop (s : State) : Steered s (travelStop s) := by
  obtain ⟨h, -⟩ | ⟨h, -⟩ := travelStop_cases s
  · exact h ▸ steered_forceStop _ (by simp) s
  · exact h.symm ▸ .refl s

/-- The state that steps 2 to 5 leave. -/
def tested (b : Bool) (s : State) : State :=
  travelStop (homingEnd (switchReleased b (switchFound b s)))

theorem steered_tested (b : Bool) (s : State) : Steered s (tested b s) :=
  (steered_switchFound b s).trans ((steered_switchReleased b _).trans ((steered_homingEnd _).trans (steered_travelStop _)))

theorem afterDispatch_eq (b : Bool) (s : State) :
    afterDispatch b s = andThen (dueStep (tested b s)) (fun u => .next (endIteration b u)) := rfl

/-- With no step due after the tests, they are all the iteration does. -/
theorem afterDispatch_of_tested {b : Bool} (htested : tested b s = u) (hdue : due u = false) :
    afterDispatch b s = .next (endIteration b u) := by
  rw [afterDispatch_eq, htested, dueStep_of_not_due hdue, andThen_next]

/-! ### Step 6 -/

/-- The state after a due step: one step of the direction, one count (R187). -/
def counted (s : State) : State :=
  { steppedState (directionValue s.direction) s with stepCount := s.stepCount + 1 }

/-- The next step of the direction leaves `pos` in its range. -/
def StepInRange (s : State) : Prop :=
  s.pos.toInt + directionValue s.direction ≤ 2147483647 ∧ -2147483648 ≤ s.pos.toInt + directionValue s.direction

/-- In a legal configuration step 6 does nothing, takes the step, or finds `pos` at its end; `step_count` never overflows,
since it is behind the elapsed time (R147, R187). -/
theorem dueStep_outcomes (hlegal : s.cfg.Legal) :
    (due s = false ∧ dueStep s = .next s) ∨
    (due s = true ∧ StepInRange s ∧ dueStep s = .next (counted s)) ∨
    (due s = true ∧ ¬StepInRange s ∧ dueStep s = .fault .posOverflow) := by
  cases hdue : due s with
  | false => exact .inl ⟨rfl, dueStep_of_not_due hdue⟩
  | true =>
    obtain ⟨-, hidle⟩ | ⟨-, -, hstep⟩ := dueStep_cases s
    · exact absurd ⟨ne_stopped_of_due hdue, hdue⟩ hidle
    obtain ⟨hnext, hmax, hmin⟩ | ⟨hfault, hout⟩ := ssqStep_cases (directionValue s.direction) s
    · have hbehind := stepCount_lt_of_due hlegal hdue
      have helapsed := (s.tickNow - s.tickOrigin).isLt
      obtain ⟨hcount, -⟩ | ⟨-, htop⟩ := countStep_cases (steppedState (directionValue s.direction) s)
      · exact .inr (.inl ⟨rfl, ⟨hmax, hmin⟩, by rw [hstep, hnext, andThen_next, hcount]; rfl⟩)
      · have hlast : s.stepCount.toNat = 4294967295 := congrArg BitVec.toNat htop
        omega
    · refine .inr (.inr ⟨rfl, fun hin => ?_, by rw [hstep, hfault, andThen_fault]⟩)
      obtain ⟨hmax, hmin⟩ := hin
      omega

theorem afterDispatch_outcomes (b : Bool) (hlegal : s.cfg.Legal) :
    (due (tested b s) = false ∧ afterDispatch b s = .next (endIteration b (tested b s))) ∨
    (due (tested b s) = true ∧ StepInRange (tested b s) ∧
      afterDispatch b s = .next (endIteration b (counted (tested b s)))) ∨
    (due (tested b s) = true ∧ ¬StepInRange (tested b s) ∧ afterDispatch b s = .fault .posOverflow) := by
  have hlegal' : (tested b s).cfg.Legal := (steered_tested b s).cfg ▸ hlegal
  rw [afterDispatch_eq]
  obtain ⟨hdue, h⟩ | ⟨hdue, hrange, h⟩ | ⟨hdue, hrange, h⟩ := dueStep_outcomes hlegal'
  · exact .inl ⟨hdue, by rw [h, andThen_next]⟩
  · exact .inr (.inl ⟨hdue, hrange, by rw [h, andThen_next]⟩)
  · exact .inr (.inr ⟨hdue, hrange, by rw [h, andThen_fault]⟩)

end Sys2Proof.Machine
end

section
/-! What a step leaves (spec/42_trackerstatemachine.md R189, spec/20_memory.md R70, R73, spec/60_exceptions.md R230, R250): the
outcomes of a whole step, and the statements that follow from what steps 1 to 5 keep. -/

namespace Sys2Proof.Machine

open Sys2Proof.Statement

variable {s t u : State}

/-! ### A turn of the RCB -/

/-- The state that step 1 finds: the iteration has begun and the head of the FIFO is popped (R182). -/
def popped (s : State) : State := { begun s with fifo := s.fifo.tail }

theorem step_of_dispatchToken {d : State} (hlegal : s.cfg.Legal) (hturn : RcbHasTurn s)
    (henabled : s.fifo ≠ [] ∨ s.mode ≠ .stopped) (hdispatch : dispatchToken s.fifo.head? (popped s) = .next d) :
    step s = afterDispatch s.sw d := by
  rw [step_of_enabled hlegal hturn henabled]
  exact congrArg (andThen · (afterDispatch s.sw)) hdispatch

/-- A turn is held, or is step 1, which completes, and steps 2 to 6 after it (R180, R181). -/
theorem turn_outcomes (hlegal : s.cfg.Legal) (hturn : RcbHasTurn s) :
    (s.fifo = [] ∧ s.mode = .stopped ∧ step s = .next { s with agenda := agendaAfterTurn s.agenda }) ∨
    ∃ d, dispatchToken s.fifo.head? (popped s) = .next d ∧ Steered (popped s) d ∧ step s = afterDispatch s.sw d := by
  by_cases henabled : s.fifo ≠ [] ∨ s.mode ≠ .stopped
  · obtain ⟨d, hdispatch, hsteered⟩ := dispatchToken_steered s.fifo.head? (popped s)
    exact .inr ⟨d, hdispatch, hsteered, step_of_dispatchToken hlegal hturn henabled hdispatch⟩
  · obtain ⟨hfifo, hmode⟩ : s.fifo = [] ∧ s.mode = .stopped := by simpa using henabled
    exact .inl ⟨hfifo, hmode, step_of_held hlegal hturn hfifo hmode⟩

/-- A completed turn is held, or steps 1 to 5 lead to a state `u` on which step 6 then has nothing to do or takes its step. -/
theorem turn_next_cases (hturn : RcbHasTurn s) (h : step s = .next t) :
    (s.fifo = [] ∧ s.mode = .stopped ∧ t = { s with agenda := agendaAfterTurn s.agenda }) ∨
    ∃ u, Steered (popped s) u ∧
      (t = endIteration s.sw u ∨ due u = true ∧ StepInRange u ∧ t = endIteration s.sw (counted u)) := by
  have hlegal := legal_of_step h
  obtain ⟨hfifo, hmode, hheld⟩ | ⟨d, -, hsteered, hstep⟩ := turn_outcomes hlegal hturn
  · cases hheld.symm.trans h
    exact .inl ⟨hfifo, hmode, rfl⟩
  have hdlegal : d.cfg.Legal := hsteered.cfg ▸ hlegal
  refine .inr ⟨tested s.sw d, hsteered.trans (steered_tested s.sw d), ?_⟩
  obtain ⟨-, hd⟩ | ⟨hdue, hrange, hd⟩ | ⟨-, -, hd⟩ := afterDispatch_outcomes s.sw hdlegal
  · cases (hstep.trans hd).symm.trans h
    exact .inl rfl
  · cases (hstep.trans hd).symm.trans h
    exact .inr ⟨hdue, hrange, rfl⟩
  · cases (hstep.trans hd).symm.trans h

/-- Settles O37: nothing after the pop writes the FIFO. -/
theorem oneTokenPerIteration : Obligations.OneTokenPerIteration := by
  intro s t hturn h
  obtain ⟨hfifo, -, rfl⟩ | ⟨u, hsteered, rfl | ⟨-, -, rfl⟩⟩ := turn_next_cases hturn h
  · exact hfifo.trans (by rw [hfifo, List.tail_nil])
  · exact hsteered.fifo
  · exact hsteered.fifo

theorem turn_agenda (hturn : RcbHasTurn s) (h : step s = .next t) : t.agenda = agendaAfterTurn s.agenda := by
  obtain ⟨-, -, rfl⟩ | ⟨u, hsteered, rfl | ⟨-, -, rfl⟩⟩ := turn_next_cases hturn h
  · rfl
  · exact hsteered.agenda
  · exact hsteered.agenda

/-- Settles O38: with room the push's own step; into a full FIFO the turn is the RCB's, which keeps the push and pops. -/
theorem blockingPushWaitsForRoom : Obligations.BlockingPushWaitsForRoom := by
  refine fun s c rest hlegal hport hagenda => ⟨step_of_pushBlocking hlegal hport hagenda, fun hfull t h => ?_⟩
  have hturn : RcbHasTurn s := ⟨hport, .inr (.inr ⟨c, rest, hagenda, hfull⟩)⟩
  exact ⟨(turn_agenda hturn h).trans (by rw [hagenda]; rfl), oneTokenPerIteration s t hturn h⟩

/-- Settles O36: a turn that changes the mode has restarted the timing, and then no step is due. -/
theorem modeChangeRestartsTheTiming : Obligations.ModeChangeRestartsTheTiming := by
  intro s t hinv hturn h hmode
  obtain ⟨-, -, rfl⟩ | ⟨u, hsteered, rfl | ⟨hdue, -, rfl⟩⟩ := turn_next_cases hturn h
  · exact absurd rfl hmode
  · have hrestarted := hsteered.mode_eq_or_restarted.resolve_left hmode
    exact ⟨hrestarted.coil, hrestarted.stepCount, hrestarted.tickNow, hrestarted.tickOrigin, hsteered.phase,
      hrestarted.direction, hrestarted.ledBox, hrestarted.tickRst_mem, hrestarted.led_mem⟩
  · exact absurd (hsteered.timingKept_of_due hinv.legal hdue).mode hmode

/-! ### Every step -/

/-- A sequencer word is a command or the reserved word (R97). -/
theorem decodeSeq_cases (w : SeqWord) : decodeSeq w = .seqReserved ∨ isSequencerCommand (decodeSeq w) = true := by
  revert w
  decide

/-- A word of the sequencer that completes writes phase, coil and `pos` only. -/
theorem frame_of_exec_decodeSeq {w : SeqWord} (h : exec (decodeSeq w) s = .next t) :
    t = { s with phase := t.phase, coil := t.coil, pos := t.pos } := by
  obtain hreserved | hcommand := decodeSeq_cases w
  · rw [hreserved] at h
    cases h
  · exact (movedBy_of_exec hcommand h).frame

/-- What every step leaves of the configuration, the tick source and the record of events. -/
structure StepEffect (s t : State) : Prop where
  cfg : t.cfg = s.cfg
  ticks : s.tickNow.toNat ≤ t.tickNow.toNat ∨ t.tickNow = 0 ∧ Output.tickRst ∈ t.outputs
  events : ∀ e ∈ t.events, e ∈ s.events ∨ e ≠ .homingStall ∧ e ≠ .arithOverflow

theorem StepEffect.of_steered (h : Steered (popped s) t) : StepEffect s t where
  cfg := h.cfg
  ticks := h.timing.imp (fun hkept => (congrArg BitVec.toNat hkept.tickNow).ge) fun hrestarted =>
    ⟨hrestarted.tickNow, hrestarted.tickRst_mem⟩
  events e he := (h.events e he).imp_left fun hmem => absurd hmem List.not_mem_nil

theorem StepEffect.of_turn (hturn : RcbHasTurn s) (h : step s = .next t) : StepEffect s t := by
  obtain ⟨-, -, rfl⟩ | ⟨u, hsteered, hlast⟩ := turn_next_cases hturn h
  · exact ⟨rfl, .inl le_rfl, fun _ he => .inl he⟩
  obtain ⟨hcfg, hticks, hevents⟩ := StepEffect.of_steered hsteered
  obtain rfl | ⟨-, -, rfl⟩ := hlast
  · exact ⟨hcfg, hticks, hevents⟩
  · exact ⟨hcfg, hticks, hevents⟩

theorem StepEffect.of_outsideStep (h : OutsideStep s t) : StepEffect s t where
  cfg := by rw [h.frame]
  ticks := .inl h.ticks
  events e he := by
    obtain hnone | hdropped := h.events
    · simp [hnone] at he
    · simp [hdropped] at he
      simp [he]

theorem stepEffect_of_step (h : step s = .next t) : StepEffect s t := by
  have hlegal := legal_of_step h
  rcases hport : s.seqPort with _ | w
  · obtain ⟨hturn, -⟩ | ⟨rest, -, hboot⟩ | ⟨k, rest, -, -, hfault⟩ | ⟨t', hnext, houtside⟩ :=
      step_outcomes hlegal hport
    · exact .of_turn hturn h
    · cases hboot.symm.trans h
      exact ⟨rfl, .inl le_rfl, fun _ he => absurd he List.not_mem_nil⟩
    · cases hfault.symm.trans h
    · cases hnext.symm.trans h
      exact .of_outsideStep houtside
  · rw [stepRunsThePortWord s w hlegal hport] at h
    rw [frame_of_exec_decodeSeq h]
    exact ⟨rfl, .inl le_rfl, fun _ he => absurd he List.not_mem_nil⟩

/-- Settles O50: the configuration's part of a step's effect. -/
theorem configurationIsNeverWritten : Obligations.ConfigurationIsNeverWritten := fun _ _ h => (stepEffect_of_step h).cfg

/-- Settles O44: the tick source's part of a step's effect. -/
theorem tickSourceFallsOnlyByReset : Obligations.TickSourceFallsOnlyByReset := fun _ _ h => (stepEffect_of_step h).ticks

/-- Settles O51: an event in the new record is an old one, or is neither E4 nor E6. -/
theorem stallAndOverflowAreNeverRaised : Obligations.StallAndOverflowAreNeverRaised := by
  intro s t hstall hoverflow h
  have hevents := (stepEffect_of_step h).events
  exact ⟨fun hmem => (hevents _ hmem).elim hstall fun hne => hne.1 rfl,
    fun hmem => (hevents _ hmem).elim hoverflow fun hne => hne.2 rfl⟩

/-- Settles O43: what is neither the RCB's turn nor a boot is the step of an agent outside. -/
theorem onlyTheRcbWritesItsState : Obligations.OnlyTheRcbWritesItsState := by
  intro s t hport hturn hboot h
  obtain ⟨hrcb, -⟩ | ⟨rest, hagenda, -⟩ | ⟨k, rest, -, -, hfault⟩ | ⟨t', hnext, houtside⟩ :=
    step_outcomes (legal_of_step h) hport
  · exact absurd hrcb hturn
  · exact absurd hagenda (hboot rest)
  · cases hfault.symm.trans h
  · cases hnext.symm.trans h
    rw [houtside.frame]
    exact ⟨rfl, rfl, rfl, rfl, rfl, rfl, rfl, rfl, rfl, rfl, rfl, rfl, rfl⟩

end Sys2Proof.Machine
end

section
/-! Steps 2 to 6 of an iteration on any state step 1 can leave (spec/42_trackerstatemachine.md R183 to R188,
spec/70_reset_and_hazards.md R289, R293): each cause by itself, then their composition. -/

namespace Sys2Proof.Machine

open Sys2Proof.Statement

variable {b : Bool} {s : State}

/-! ### Each cause, and its absence -/

theorem switchFound_of_not (h : ¬(s.cfg.homing = true ∧ s.mode = .rewind ∧ s.swPrev = false ∧ b = true)) :
    switchFound b s = s :=
  if_neg (by simpa using h)

theorem switchReleased_of_not (h : ¬(s.cfg.homing = true ∧ s.mode = .homingFound ∧ s.swPrev = true ∧ b = false)) :
    switchReleased b s = s :=
  if_neg (by simpa using h)

theorem homingEnd_of_not (h : ¬(s.cfg.homing = true ∧ s.mode = .homingQuitting ∧ 0 ≤ s.pos.toInt)) : homingEnd s = s :=
  if_neg (by simpa using h)

theorem travelStop_of_not
    (h : ¬(s.cfg.boundsCheck = true ∧ s.direction = .forward ∧ (s.cfg.travelLimit : Int) < s.pos.toInt)) :
    travelStop s = s :=
  if_neg (by simpa using h)

theorem switchFound_of_pressed (hhoming : s.cfg.homing = true) (hmode : s.mode = .rewind) (hprev : s.swPrev = false) :
    switchFound true s = entered .homingFound .forward .third s :=
  (if_pos ⟨hhoming, hmode, by simp [hprev]⟩).trans (transition_of_ne (by simp [hmode]))

theorem switchReleased_of_released (hhoming : s.cfg.homing = true) (hmode : s.mode = .homingFound)
    (hprev : s.swPrev = true) :
    switchReleased false s = entered .homingQuitting .forward .third { s with pos := negQuitOffset s.cfg } :=
  (if_pos ⟨hhoming, hmode, by simp [hprev]⟩).trans (transition_of_ne (by simp [hmode]))

/-- The state after a forced stop from another mode (R245). -/
def forcedStop (e : Event) (x : Tone) (s : State) : State :=
  { entered .stopped .none .solid s with
    toneBox := some x
    events := s.events ++ [e]
    outputs := s.outputs ++ [.tickRst, .led .solid, .tone x] }

theorem homingEnd_of_reached (hhoming : s.cfg.homing = true) (hmode : s.mode = .homingQuitting)
    (hpos : 0 ≤ s.pos.toInt) : homingEnd s = forcedStop .homingDone .success s :=
  (if_pos ⟨hhoming, hmode, (homeReached_iff s).mpr hpos⟩).trans (forceStop_of_ne (by simp [hmode]))

theorem travelStop_of_over (hmode : s.mode ≠ .stopped) (hbounds : s.cfg.boundsCheck = true)
    (hdir : s.direction = .forward) (hover : (s.cfg.travelLimit : Int) < s.pos.toInt) :
    travelStop s = forcedStop .boundsViolation .alert s :=
  (if_pos ⟨hbounds, (movingForward_iff s).mpr hdir, (overLimit_iff s).mpr hover⟩).trans (forceStop_of_ne hmode)

/-! ### The causes in their order -/

theorem tested_of_noHomingCause (h : NoHomingCause b s) : tested b s = travelStop s := by
  obtain ⟨hfound, hreleased, hhome⟩ := h
  rw [tested, switchFound_of_not hfound, switchReleased_of_not hreleased, homingEnd_of_not hhome]

theorem tested_of_noCause (h : NoCause b s) : tested b s = s := by
  rw [tested_of_noHomingCause h.1, travelStop_of_not h.2]

/-- After step 2 the later homing tests have nothing to find: the switch is pressed and the mode is `HomingFound`. -/
theorem tested_of_pressed (hhoming : s.cfg.homing = true) (hmode : s.mode = .rewind) (hprev : s.swPrev = false) :
    tested true s = travelStop (entered .homingFound .forward .third s) := by
  rw [tested, switchFound_of_pressed hhoming hmode hprev, switchReleased_of_not (by simp),
    homingEnd_of_not (by simp [entered])]

/-- After the snapshot `pos` is negative: neither home nor past the limit. -/
theorem tested_of_released (hlegal : s.cfg.Legal) (hhoming : s.cfg.homing = true) (hmode : s.mode = .homingFound)
    (hprev : s.swPrev = true) :
    tested false s = entered .homingQuitting .forward .third { s with pos := negQuitOffset s.cfg } := by
  have hpos := negQuitOffset_toInt hlegal
  obtain ⟨-, -, -, -, -, -, hquit, -⟩ := hlegal
  rw [tested, switchFound_of_not (by simp), switchReleased_of_released hhoming hmode hprev, homingEnd_of_not,
    travelStop_of_not]
  · rintro ⟨-, -, hover⟩
    simp only [entered, hpos] at hover
    omega
  · rintro ⟨-, -, hhome⟩
    simp only [entered, hpos] at hhome
    omega

/-- After step 4 the motor does not move forward. -/
theorem tested_of_home (hhoming : s.cfg.homing = true) (hmode : s.mode = .homingQuitting) (hpos : 0 ≤ s.pos.toInt) :
    tested b s = forcedStop .homingDone .success s := by
  rw [tested, switchFound_of_not (by simp [hmode]), switchReleased_of_not (by simp [hmode]),
    homingEnd_of_reached hhoming hmode hpos, travelStop_of_not (by simp [forcedStop, entered])]

/-! ### With step 6 -/

/-- Settles O28: step 2 alone, or step 5 after it; either way no step is due. -/
theorem switchPressedFindsHome : Obligations.SwitchPressedFindsHome := by
  intro u hlegal hhoming hmode hprev
  have htested := tested_of_pressed hhoming hmode hprev
  refine ⟨fun hwithin => ?_, fun ⟨hbounds, hover⟩ => ?_⟩
  · have hkept : travelStop (entered .homingFound .forward .third u) = entered .homingFound .forward .third u :=
      travelStop_of_not fun ⟨hbounds, _, hover⟩ => hwithin ⟨hbounds, hover⟩
    exact afterDispatch_of_tested (htested.trans hkept) (due_eq_false_of_restart hlegal rfl rfl rfl)
  · have hforced : travelStop (entered .homingFound .forward .third u) =
        forcedStop .boundsViolation .alert (entered .homingFound .forward .third u) :=
      travelStop_of_over Mode.noConfusion hbounds rfl hover
    rw [afterDispatch_of_tested (htested.trans hforced) (due_stopped rfl)]
    simp [forcedStop, entered, endIteration]

/-- Settles O29: the snapshot and the transition; no step is due after it. -/
theorem switchReleasedSnapshotsPosition : Obligations.SwitchReleasedSnapshotsPosition := by
  intro u hlegal hhoming hmode hprev
  exact ⟨negQuitOffset u.cfg, negQuitOffset_toInt hlegal,
    afterDispatch_of_tested (tested_of_released hlegal hhoming hmode hprev) (due_eq_false_of_restart hlegal rfl rfl rfl)⟩

/-- Settles O30: step 4, and `Stopped` has no step. -/
theorem homeReachedStopsWithSuccess : Obligations.HomeReachedStopsWithSuccess := fun _ _ hhoming hmode hpos =>
  afterDispatch_of_tested (tested_of_home hhoming hmode hpos) (due_stopped rfl)

/-- Settles O31: step 5 alone, and `Stopped` has no step. -/
theorem travelLimitForcesStop : Obligations.TravelLimitForcesStop := by
  intro u b hcause hbounds hdir hmode hover
  have htested := (tested_of_noHomingCause hcause).trans (travelStop_of_over hmode hbounds hdir hover)
  exact afterDispatch_of_tested htested (due_stopped rfl)

/-- Settles O33: with no cause steps 2 to 5 leave the state, and no step is due. -/
theorem noStepBeforeItsTime : Obligations.NoStepBeforeItsTime := by
  intro u b hlegal hcause hearly
  refine afterDispatch_of_tested (tested_of_noCause hcause) ?_
  obtain hstopped | ⟨k, hk, hbefore⟩ := hearly
  · exact due_stopped hstopped
  · exact (due_eq_false_iff hlegal hk).mpr hbefore

/-- What a counted step moves: the motor by one step of the direction, the index by one. -/
theorem counted_moves (hlegal : s.cfg.Legal) (hdue : due s = true) (hrange : StepInRange s) :
    MovedBy (directionValue s.direction) s (steppedState (directionValue s.direction) s) ∧
      (counted s).coil = tableRow (activeTable s.cfg) (counted s).phase ∧
      (counted s).stepCount.toNat = s.stepCount.toNat + 1 := by
  refine ⟨movedBy_steppedState hrange.1 hrange.2, steppedState_coil _ s, ?_⟩
  have hbehind := stepCount_lt_of_due hlegal hdue
  have helapsed := (s.tickNow - s.tickOrigin).isLt
  rw [counted, BitVec.toNat_add]
  exact Nat.mod_eq_of_lt (by simp; omega)

theorem afterDispatch_of_due (hlegal : s.cfg.Legal) (hcause : NoCause b s) (hdue : due s = true)
    (hrange : StepInRange s) : afterDispatch b s = .next (endIteration b (counted s)) := by
  have hafter := afterDispatch_outcomes b hlegal
  rw [tested_of_noCause hcause] at hafter
  obtain ⟨hnot, -⟩ | ⟨-, -, h⟩ | ⟨-, hout, -⟩ := hafter
  · rw [hdue] at hnot
    cases hnot
  · exact h
  · exact absurd hrange hout

/-- Settles O32: with no cause steps 2 to 5 leave the state, and the due step moves and counts. -/
theorem dueStepIsTaken : Obligations.DueStepIsTaken := by
  intro u b k hlegal hk hcause hreached hmin hmax
  have hdue := (due_iff hlegal hk).mpr hreached
  obtain ⟨hmove, hcoil, hcount⟩ := counted_moves hlegal hdue ⟨hmax, hmin⟩
  exact ⟨endIteration b (counted u), afterDispatch_of_due hlegal hcause hdue ⟨hmax, hmin⟩, hmove.phase, hcoil, hmove.pos,
    hcount, rfl⟩

end Sys2Proof.Machine
end

section
/-! Whole turns (spec/43_commands.md R216 to R218, spec/42_trackerstatemachine.md R183, R189, R193): what a token and the tests
of the same turn do together. -/

namespace Sys2Proof.Machine

open Sys2Proof.Statement

variable {s t u : State}

/-! ### Tokens that enter a mode -/

theorem noHomingCause_of_isHomingMode_eq_false (b : Bool) (h : isHomingMode s.mode = false) : NoHomingCause b s := by
  refine ⟨?_, ?_, ?_⟩ <;> rintro ⟨-, hmode, -⟩ <;> simp [hmode, isHomingMode] at h

/-- A forward mode entered above the limit is left at once (R186, R218 (a)). -/
theorem afterDispatch_entered_over {b : Bool} {m : Mode} {l : Led} (hhoming : isHomingMode m = false) (hmode : m ≠ .stopped)
    (hbounds : s.cfg.boundsCheck = true) (hover : (s.cfg.travelLimit : Int) < s.pos.toInt) :
    afterDispatch b (entered m .forward l s) =
      .next (endIteration b (forcedStop .boundsViolation .alert (entered m .forward l s))) :=
  travelLimitForcesStop (entered m .forward l s) b (noHomingCause_of_isHomingMode_eq_false b hhoming) hbounds rfl hmode hover

/-- Settles O57: the token's transition, then step 5 on the state it leaves. -/
theorem forwardTokenAboveTheLimitIsForcedBack : Obligations.ForwardTokenAboveTheLimitIsForcedBack := by
  intro s c rest hlegal hturn hfifo hbounds hover
  rw [stepRunsTheHeadToken s c rest hlegal hturn hfifo]
  refine ⟨fun htoken hmode => ?_, fun htoken hmode => ?_⟩
  · have hexec : exec (decodeCmd s.cfg.homing c) { begun s with fifo := rest } =
        .next (entered .tracking .forward .slow { begun s with fifo := rest }) := by
      obtain rfl | rfl := htoken
      · exact (startTokensEnterTracking _).1.trans (congrArg _ (if_neg hmode))
      · exact (startTokensEnterTracking _).2.trans (congrArg _ (if_neg hmode))
    rw [hexec]
    exact afterDispatch_entered_over (s := { begun s with fifo := rest }) rfl Mode.noConfusion hbounds hover
  · have hexec : exec (decodeCmd s.cfg.homing c) { begun s with fifo := rest } =
        .next (entered .fastForward .forward .fast { begun s with fifo := rest }) := by
      subst htoken
      exact (fastForwardTokenEntersFastForward _).trans (congrArg _ (if_neg hmode))
    rw [hexec]
    exact afterDispatch_entered_over (s := { begun s with fifo := rest }) rfl Mode.noConfusion hbounds hover

theorem decodeCmd_rewind : decodeCmd true 0x72#8 = .cmdR := rfl

/-- Settles O58: the token's transition, then step 2, and above the limit step 5, on the state it leaves. -/
theorem rewindOntoThePressedSwitch : Obligations.RewindOntoThePressedSwitch := by
  intro s rest hlegal hturn hfifo hhoming hmode hprev hsw
  have hexec : exec (decodeCmd s.cfg.homing 0x72#8) { begun s with fifo := rest } =
      .next (entered .rewind .backward .third { begun s with fifo := rest }) := by
    rw [hhoming, decodeCmd_rewind]
    exact ((rewindTokenNeedsHoming { begun s with fifo := rest }).1 hhoming).trans (congrArg _ (if_neg hmode))
  rw [stepRunsTheHeadToken s _ rest hlegal hturn hfifo, hexec, hsw]
  exact switchPressedFindsHome (entered .rewind .backward .third { begun s with fifo := rest }) hlegal hhoming rfl hprev

/-! ### An unrecognised token -/

/-- Settles O59: the diagnostic writes the records only, so each cause acts on the state it leaves as it would without it. -/
theorem unrecognisedTokenDoesNotStopTheTests : Obligations.UnrecognisedTokenDoesNotStopTheTests := by
  intro s c rest hlegal hturn hfifo hdecode
  have hstep : step s = afterDispatch s.sw (diagnosed c { begun s with fifo := rest }) := by
    rw [stepRunsTheHeadToken s c rest hlegal hturn hfifo, hdecode, exec_cmdUnrec, andThen_next]
  rw [hstep]
  refine ⟨fun hhoming hmode hprev hsw hwithin => ?_, fun hhoming hmode hprev hsw => ?_, fun hhoming hmode hpos => ?_,
    fun hcause hbounds hdir hmode hover => ?_⟩
  · rw [hsw]
    exact (switchPressedFindsHome (diagnosed c { begun s with fifo := rest }) hlegal hhoming hmode hprev).1 hwithin
  · rw [hsw]
    exact switchReleasedSnapshotsPosition (diagnosed c { begun s with fifo := rest }) hlegal hhoming hmode hprev
  · exact homeReachedStopsWithSuccess (diagnosed c { begun s with fifo := rest }) s.sw hhoming hmode hpos
  · exact travelLimitForcesStop (diagnosed c { begun s with fifo := rest }) s.sw hcause hbounds hdir hmode hover

/-! ### Tokens that leave the mode -/

/-- The state with `ddir`, the tone mailbox and the records written: all that a token that leaves the mode can write (R173,
R215, R216). -/
def quieted (g : Sign) (x : Option Tone) (o : List Output) (e : List Event) (s : State) : State :=
  { s with ddir := g, toneBox := x, outputs := o, events := e }

/-- From `s` the token, or none, leaves the mode, and negates `ddir` if it is `d`. -/
def QuietAfter (c : Option Token) (s t : State) : Prop :=
  ∃ x o e, t = quieted (if c = some 0x64#8 then signFlip s.ddir else s.ddir) x o e s

theorem quietAfter_transition {c : Token} {m : Mode} (hc : c ≠ 0x64#8) (hm : m = s.mode) :
    QuietAfter (some c) s (transition m s) := by
  rw [transition_self hm, QuietAfter, if_neg (by simpa using hc)]
  exact ⟨s.toneBox, s.outputs, s.events, rfl⟩

theorem exec_token_quiet {c : Token} (h : tokenTarget s.cfg.homing c s.mode = s.mode) :
    ∃ u, exec (decodeCmd s.cfg.homing c) s = .next u ∧ QuietAfter (some c) s u := by
  by_cases hd : c = 0x64#8
  · subst hd
    exact ⟨toggled s, by rw [decodeCmd_toggle, exec_cmdD], _, _, _, rfl⟩
  simp only [decodeCmd, if_neg hd]
  split_ifs with hs hp ht hf hr
  · exact ⟨_, rfl, quietAfter_transition hd (by simpa [tokenTarget, hs] using h)⟩
  · exact ⟨_, rfl, quietAfter_transition hd (by simpa [tokenTarget, hp] using h)⟩
  · exact ⟨_, rfl, quietAfter_transition hd (by simpa [tokenTarget, ht] using h)⟩
  · exact ⟨_, rfl, quietAfter_transition hd (by simpa [tokenTarget, hf] using h)⟩
  · exact ⟨_, exec_cmdR_of_homing hr.2, quietAfter_transition hd (by simpa [tokenTarget, hr] using h)⟩
  · exact ⟨_, exec_cmdUnrec c s, by rw [QuietAfter, if_neg (by simpa using hd)]; exact ⟨_, _, _, rfl⟩⟩

theorem dispatchToken_quiet {c : Option Token} (h : ∀ x, c = some x → tokenTarget s.cfg.homing x s.mode = s.mode) :
    ∃ u, dispatchToken c s = .next u ∧ QuietAfter c s u := by
  cases c with
  | none => exact ⟨s, rfl, _, _, _, rfl⟩
  | some x => exact exec_token_quiet (h x rfl)

/-- Settles O56: the token leaves what the causes and the clock read, and step 6 then acts as on any state. -/
theorem quietTokenLeavesTheTimingRunning : Obligations.QuietTokenLeavesTheTimingRunning := by
  intro s k hlegal hturn hk hcause hquiet
  obtain ⟨u, hdispatch, x, o, e, rfl⟩ := dispatchToken_quiet (s := popped s) hquiet
  rw [step_of_dispatchToken hlegal hturn (.inr (ne_stopped_of_rateClass hk)) hdispatch]
  refine ⟨fun hreached hmin hmax => ?_, fun hbefore => ?_⟩
  · obtain ⟨t, ht, hphase, hcoil, hpos, hcount, hframe⟩ :=
      dueStepIsTaken (quieted _ x o e (popped s)) s.sw k hlegal hk hcause hreached hmin hmax
    have hddir : t.ddir = if s.fifo.head? = some 0x64#8 then signFlip s.ddir else s.ddir := by
      rw [hframe]
      rfl
    refine ⟨t, ht, hddir, hddir ▸ hphase, hcoil, hpos, hcount, ?_⟩
    rw [hframe]
    rfl
  · exact ⟨_, noStepBeforeItsTime (quieted _ x o e (popped s)) s.sw hlegal hcause (.inr ⟨k, hk, hbefore⟩), rfl, rfl⟩

end Sys2Proof.Machine
end

section
/-! The invariant (spec/10_state.md R47, R147 (b), R185, R190): kept by each operation, by steps 1 to 5, by the due step and by
every other agent; and what it says of faults and refusals (R237). -/

namespace Sys2Proof.Machine

open Sys2Proof.Statement

variable {b : Bool} {s t u : State}

/-! ### The operations keep it -/

namespace Inv

theorem homing_of_isHomingMode (h : Inv s) (hmode : isHomingMode s.mode = true) : s.cfg.homing = true := by
  by_contra hno
  rw [h.homing_modes (Bool.eq_false_iff.mpr hno)] at hmode
  cases hmode

theorem quieted (h : Inv s) (g : Sign) (x : Option Tone) (o : List Output) (e : List Event) : Inv (quieted g x o e s) :=
  { h with }

theorem popped (h : Inv s) : Inv (popped s) :=
  { h with fifo_bound := (List.tail_sublist s.fifo).length_le.trans h.fifo_bound }

theorem endIteration (h : Inv s) (b : Bool) : Inv (endIteration b s) := { h with }

theorem agenda (h : Inv s) (l : List AgentStep) : Inv { s with agenda := l } := { h with }

/-- A transition keeps it when the build has the target, and for `HomingQuitting` when `pos` is in its window. -/
theorem transition (h : Inv s) {m : Mode} (hhoming : isHomingMode m = true → s.cfg.homing = true)
    (hquitting : m = .homingQuitting → -(s.cfg.quitOffset : Int) ≤ s.pos.toInt ∧ s.pos.toInt ≤ 0) :
    Inv (transition m s) := by
  by_cases hm : m = s.mode
  · rwa [transition_self hm]
  rw [transition_of_ne hm]
  exact {
    legal := h.legal
    direction_canon := rfl
    origin_zero := rfl
    coil_row := .inl rfl
    stopped_quiet := fun _ => ⟨rfl, rfl⟩
    homing_modes := fun hno => Bool.eq_false_iff.mpr fun hmode => Bool.eq_false_iff.mp hno (hhoming hmode)
    pos_bound := h.pos_bound
    count_le_ticks := le_rfl
    quitting_pos := hquitting
    fifo_bound := h.fifo_bound
    port_empty := h.port_empty }

theorem forceStop (h : Inv s) (e : Event) (x : Tone) : Inv (forceStop e x s) :=
  (h.transition (m := .stopped) Bool.noConfusion Mode.noConfusion).quieted _ _ _ _

theorem dispatchToken (h : Inv s) {c : Option Token} {d : State} (hd : dispatchToken c s = .next d) : Inv d := by
  obtain ⟨hnone, -⟩ | ⟨m, hhoming, -, hquitting, hm⟩ | htoggled | ⟨x, hx⟩ := dispatchToken_cases c s
  · cases hnone.symm.trans hd
    exact h
  · cases hm.symm.trans hd
    exact h.transition hhoming fun hmode => absurd hmode hquitting
  · cases htoggled.symm.trans hd
    exact h.quieted _ _ _ _
  · cases hx.symm.trans hd
    exact h.quieted _ _ _ _

theorem switchFound (h : Inv s) (b : Bool) : Inv (switchFound b s) := by
  obtain ⟨heq, hhoming, -⟩ | ⟨heq, -⟩ := switchFound_cases b s
  · rw [heq]
    exact h.transition (fun _ => hhoming) Mode.noConfusion
  · rwa [heq]

/-- The snapshot puts `pos` at the low end of the window of `HomingQuitting` (R184). -/
theorem switchReleased (h : Inv s) (b : Bool) : Inv (switchReleased b s) := by
  obtain ⟨heq, hhoming, hmode, -⟩ | ⟨heq, -⟩ := switchReleased_cases b s
  · have hpos := negQuitOffset_toInt h.legal
    have hsnapshot : Inv { s with pos := negQuitOffset s.cfg } :=
      { h with
        pos_bound := fun _ => by simp only [hpos]; omega
        quitting_pos := fun hquitting => by simp [hmode] at hquitting }
    rw [heq]
    exact hsnapshot.transition (fun _ => hhoming) fun _ => by simp only [hpos]; omega
  · rwa [heq]

theorem homingEnd (h : Inv s) : Inv (homingEnd s) := by
  obtain ⟨heq, -⟩ | ⟨heq, -⟩ := homingEnd_cases s
  · exact heq ▸ h.forceStop _ _
  · rwa [heq]

theorem travelStop (h : Inv s) : Inv (travelStop s) := by
  obtain ⟨heq, -⟩ | ⟨heq, -⟩ := travelStop_cases s
  · exact heq ▸ h.forceStop _ _
  · rwa [heq]

end Inv

/-! ### The due step keeps it -/

/-- Safe, and steps 4 and 5 have found nothing: there is room for a forward step. -/
structure Ready (s : State) : Prop extends Inv s where
  within : s.cfg.boundsCheck = true → s.direction = .forward → s.pos.toInt ≤ s.cfg.travelLimit
  short : s.mode = .homingQuitting → s.pos.toInt < 0

theorem homingEnd_short (h : Inv s) (hmode : (homingEnd s).mode = .homingQuitting) : (homingEnd s).pos.toInt < 0 := by
  obtain ⟨heq, -⟩ | ⟨heq, hnot⟩ := homingEnd_cases s
  · rw [heq, forceStop_mode] at hmode
    cases hmode
  · rw [heq] at hmode ⊢
    have hhoming := h.homing_of_isHomingMode (by rw [hmode]; rfl)
    by_contra hpos
    exact hnot ⟨hhoming, hmode, (homeReached_iff s).mpr (by omega)⟩

theorem ready_travelStop (h : Inv s) (hshort : s.mode = .homingQuitting → s.pos.toInt < 0) : Ready (travelStop s) := by
  refine { h.travelStop with within := ?_, short := ?_ }
  all_goals obtain ⟨heq, -⟩ | ⟨heq, hnot⟩ := travelStop_cases s
  · intro _ hdir
    rw [heq, forceStop_direction h.direction_canon] at hdir
    cases hdir
  · rw [heq]
    intro hbounds hdir
    by_contra hover
    exact hnot ⟨hbounds, (movingForward_iff s).mpr hdir, (overLimit_iff s).mpr (by omega)⟩
  · intro hmode
    rw [heq, forceStop_mode] at hmode
    cases hmode
  · rwa [heq]

theorem Inv.ready_tested (h : Inv s) (b : Bool) : Ready (tested b s) := by
  have hhoming := (h.switchFound b).switchReleased b
  exact ready_travelStop hhoming.homingEnd (homingEnd_short hhoming)

theorem directionValue_le_zero_of_ne {d : Direction} (h : d ≠ .forward) : directionValue d ≤ 0 := by
  cases d <;> simp [directionValue] at h ⊢

/-- One step from within the limit is at most one past it (R47 (g)). -/
theorem Ready.step_within (h : Ready s) (hbounds : s.cfg.boundsCheck = true) :
    s.pos.toInt + directionValue s.direction ≤ (s.cfg.travelLimit : Int) + 1 := by
  by_cases hdir : s.direction = .forward
  · have hwithin := h.within hbounds hdir
    rw [hdir, directionValue]
    omega
  · have hbound := h.pos_bound hbounds
    have hback := directionValue_le_zero_of_ne hdir
    omega

theorem Inv.directionValue_of_quitting (h : Inv s) (hmode : s.mode = .homingQuitting) :
    directionValue s.direction = 1 := by
  rw [h.direction_canon, hmode]
  rfl

/-- In `HomingQuitting` one step forward from short of home stays in the window (R185). -/
theorem Ready.step_short (h : Ready s) (hmode : s.mode = .homingQuitting) :
    -(s.cfg.quitOffset : Int) ≤ s.pos.toInt + directionValue s.direction ∧
      s.pos.toInt + directionValue s.direction ≤ 0 := by
  obtain ⟨hlow, -⟩ := h.quitting_pos hmode
  have hshort := h.short hmode
  have hforward := h.directionValue_of_quitting hmode
  omega

/-- The due step keeps the invariant: the step index stays behind the tick source (R147 (b)), `pos` in its bounds. -/
theorem Ready.counted (h : Ready s) (hdue : due s = true) (hrange : StepInRange s) : Inv (counted s) := by
  obtain ⟨hmove, -, hcount⟩ := counted_moves h.legal hdue hrange
  have hpos : (Machine.counted s).pos.toInt = s.pos.toInt + directionValue s.direction := hmove.pos
  have hbehind := stepCount_lt_of_due h.legal hdue
  rw [h.origin_zero, sub_zero] at hbehind
  exact { h.toInv with
    coil_row := .inr rfl
    stopped_quiet := fun hstopped => (ne_stopped_of_due (s := s) hdue hstopped).elim
    pos_bound := fun hbounds => hpos.trans_le (h.step_within hbounds)
    count_le_ticks := hcount.trans_le hbehind
    quitting_pos := fun hmode => hpos ▸ h.step_short hmode }

/-! ### A turn of the RCB -/

/-- In a safe state a turn is held, or steps 1 to 5 lead to a state `u` on which step 6 does nothing, takes its step, or finds
`pos` at its end. -/
theorem Inv.turn_outcomes (h : Inv s) (hturn : RcbHasTurn s) :
    step s = .next { s with agenda := agendaAfterTurn s.agenda } ∨
    ∃ u, Steered (Machine.popped s) u ∧ Ready u ∧
      (step s = .next (Machine.endIteration s.sw u) ∨
        (due u = true ∧ StepInRange u ∧ step s = .next (Machine.endIteration s.sw (Machine.counted u))) ∨
        (due u = true ∧ ¬StepInRange u ∧ step s = .fault .posOverflow)) := by
  obtain ⟨-, -, hheld⟩ | ⟨d, hdispatch, hsteered, hstep⟩ := Machine.turn_outcomes h.legal hturn
  · exact .inl hheld
  have hd : Inv d := h.popped.dispatchToken hdispatch
  refine .inr ⟨tested s.sw d, hsteered.trans (steered_tested s.sw d), hd.ready_tested s.sw, ?_⟩
  rw [hstep]
  exact (afterDispatch_outcomes s.sw hd.legal).imp_left And.right

theorem Inv.of_turn (h : Inv s) (hturn : RcbHasTurn s) (hstep : step s = .next t) : Inv t := by
  obtain hheld | ⟨u, -, hready, hnext | ⟨hdue, hrange, hnext⟩ | ⟨-, -, hfault⟩⟩ := h.turn_outcomes hturn
  · cases hheld.symm.trans hstep
    exact h.agenda _
  · cases hnext.symm.trans hstep
    exact hready.toInv.endIteration _
  · cases hnext.symm.trans hstep
    exact (hready.counted hdue hrange).endIteration _
  · cases hfault.symm.trans hstep

/-! ### The other agents -/

theorem inv_resetWith {c : Config} (hlegal : c.Legal) : Inv (State.resetWith c) where
  legal := hlegal
  direction_canon := rfl
  origin_zero := rfl
  coil_row := .inl rfl
  stopped_quiet _ := ⟨rfl, rfl⟩
  homing_modes _ := rfl
  pos_bound _ := by simp [State.resetWith]; omega
  count_le_ticks := le_rfl
  quitting_pos hmode := Mode.noConfusion hmode
  fifo_bound := Nat.zero_le _
  port_empty := rfl

theorem Inv.bootState (h : Inv s) : Inv (bootState s) :=
  { inv_resetWith h.legal with count_le_ticks := Nat.zero_le _ }

theorem Inv.of_outsideStep (h : Inv s) (houtside : OutsideStep s t) : Inv t := by
  have hfifo : t.fifo.length ≤ s.cfg.cmdDepth := by
    obtain hkept | ⟨c, hpushed, hroom⟩ := houtside.fifo
    · rw [hkept]
      exact h.fifo_bound
    · simpa [hpushed] using hroom
  rw [houtside.frame]
  exact { h with count_le_ticks := h.count_le_ticks.trans houtside.ticks, fifo_bound := hfifo }

/-- Settles O46: a turn of the RCB, a boot, and the step of an agent outside. -/
theorem everyStepKeepsTheInvariant : Obligations.EveryStepKeepsTheInvariant := by
  intro s t h hstep
  obtain ⟨hturn, -⟩ | ⟨rest, -, hboot⟩ | ⟨k, rest, -, -, hfault⟩ | ⟨t', hnext, houtside⟩ :=
    step_outcomes h.legal h.port_empty
  · exact h.of_turn hturn hstep
  · cases hboot.symm.trans hstep
    exact (h.agenda rest).bootState
  · cases hfault.symm.trans hstep
  · cases hnext.symm.trans hstep
    exact h.of_outsideStep houtside

/-! ### Runs -/

/-- What every step keeps, a run keeps. -/
theorem runSteps_keeps {P : State → Prop} (hkeep : ∀ s t, P s → step s = .next t → P t) (n : Nat) (hs : P s)
    (h : runSteps n s = .next t) : P t := by
  induction n generalizing s with
  | zero =>
    cases h
    exact hs
  | succ n ih =>
    obtain ⟨u, hstep, hrest⟩ := andThen_eq_next.mp h
    exact ih (hkeep s u hs hstep) hrest

/-- Settles O47: the reset state is safe with any agenda. -/
theorem everyRunFromResetIsSafe : Obligations.EveryRunFromResetIsSafe := fun _ agents n _ hlegal =>
  runSteps_keeps everyStepKeepsTheInvariant n ((inv_resetWith hlegal).agenda agents)

/-- Settles O45: reset is safe, and in it the RCB is held. -/
theorem resetIsSafeAndHeld : Obligations.ResetIsSafeAndHeld := fun c hlegal =>
  ⟨inv_resetWith hlegal, step_of_held (s := State.resetWith c) hlegal ⟨rfl, .inl rfl⟩ rfl rfl⟩

/-! ### Faults and refusals -/

theorem canon_eq_backward_iff (m : Mode) : canon m = .backward ↔ m = .rewind := by
  cases m <;> decide

/-- Where the due step of a ready state leaves the range of `pos`: backward in `Rewind` at the bottom, or forward at the top
with the bounds unchecked. -/
theorem Ready.end_of_not_stepInRange (h : Ready s) (hrange : ¬StepInRange s) :
    (s.mode = .rewind ∧ s.pos.toInt = -2147483648) ∨ (s.cfg.boundsCheck = false ∧ s.pos.toInt = 2147483647) := by
  obtain ⟨hmin, hmax⟩ := pos_range s.pos
  obtain ⟨-, -, -, -, -, hlimit, -⟩ := h.legal
  unfold StepInRange at hrange
  cases hdir : s.direction with
  | backward =>
    rw [hdir, directionValue] at hrange
    exact .inl ⟨(canon_eq_backward_iff _).mp (h.direction_canon.symm.trans hdir), by omega⟩
  | none =>
    rw [hdir, directionValue] at hrange
    omega
  | forward =>
    rw [hdir, directionValue] at hrange
    refine .inr ⟨Bool.eq_false_iff.mpr fun hbounds => ?_, by omega⟩
    have hwithin := h.within hbounds hdir
    omega

/-- Settles O48: of a turn only step 6 faults, and it has then kept mode and `pos`; of the agents outside only an advance. -/
theorem safeStatesFaultOnlyOutsideTheEnvelope : Obligations.SafeStatesFaultOnlyOutsideTheEnvelope := by
  intro s f h hstep
  obtain ⟨hturn, -⟩ | ⟨rest, -, hboot⟩ | ⟨k, rest, hagenda, hpast, hfault⟩ | ⟨t, hnext, -⟩ :=
    step_outcomes h.legal h.port_empty
  · obtain hheld | ⟨u, hsteered, hready, hnext | ⟨-, -, hnext⟩ | ⟨hdue, hrange, hfault⟩⟩ := h.turn_outcomes hturn
    · cases hheld.symm.trans hstep
    · cases hnext.symm.trans hstep
    · cases hnext.symm.trans hstep
    · cases hfault.symm.trans hstep
      have hend := hready.end_of_not_stepInRange hrange
      have hkept := hsteered.timingKept_of_due h.legal hdue
      rw [hkept.mode, hkept.pos, hsteered.cfg] at hend
      exact .inr ⟨rfl, hturn, hend⟩
  · cases hboot.symm.trans hstep
  · cases hfault.symm.trans hstep
    exact .inl ⟨rfl, k, rest, hagenda, hpast⟩
  · cases hnext.symm.trans hstep

/-- Settles O49: no outcome of a turn or of another agent is a refusal. -/
theorem safeStatesAreNeverRefused : Obligations.SafeStatesAreNeverRefused := by
  intro s r h hstep
  obtain ⟨hturn, -⟩ | ⟨rest, -, hboot⟩ | ⟨k, rest, -, -, hfault⟩ | ⟨t, hnext, -⟩ :=
    step_outcomes h.legal h.port_empty
  · obtain hheld | ⟨u, -, -, hnext | ⟨-, -, hnext⟩ | ⟨-, -, hfault⟩⟩ := h.turn_outcomes hturn
    · cases hheld.symm.trans hstep
    · cases hnext.symm.trans hstep
    · cases hnext.symm.trans hstep
    · cases hfault.symm.trans hstep
  · cases hboot.symm.trans hstep
  · cases hfault.symm.trans hstep
  · cases hnext.symm.trans hstep

end Sys2Proof.Machine
end

section
/-! One step at most, in a turn and along a run (spec/42_trackerstatemachine.md R189, R194). -/

namespace Sys2Proof.Machine

open Sys2Proof.Statement

variable {b : Bool} {s t u : State}

/-! ### The position of a turn -/

@[simp] theorem travelStop_pos (s : State) : (travelStop s).pos = s.pos := by
  obtain ⟨h, -⟩ | ⟨h, -⟩ := travelStop_cases s <;> simp [h]

/-- Step 1 does not lead to `HomingFound` (R191, R217). -/
theorem eq_homingFound_of_dispatchedMode {homing : Bool} {c : Option Token} {m : Mode}
    (h : dispatchedMode homing c m = .homingFound) : m = .homingFound := by
  cases c with
  | none => exact h
  | some x =>
    simp only [dispatchedMode, tokenTarget] at h
    split_ifs at h
    exact h

/-- Only the snapshot of step 3 writes `pos` before step 6 (R184). -/
theorem tested_pos (hlegal : s.cfg.Legal) (b : Bool) : (tested b s).pos = s.pos ∨
    s.mode = .homingFound ∧ s.swPrev = true ∧ b = false ∧
      (tested b s).mode = .homingQuitting ∧ (tested b s).pos.toInt = -(s.cfg.quitOffset : Int) := by
  by_cases h : s.cfg.homing = true ∧ s.mode = .homingFound ∧ s.swPrev = true ∧ b = false
  · obtain ⟨hhoming, hmode, hprev, rfl⟩ := h
    rw [tested_of_released hlegal hhoming hmode hprev]
    exact .inr ⟨hmode, hprev, rfl, rfl, negQuitOffset_toInt hlegal⟩
  · have hnot : switchReleased b (switchFound b s) = switchFound b s := by
      refine switchReleased_of_not fun ⟨hhoming, hmode, hprev, hb⟩ => ?_
      rw [switchFound_of_not (by simp [hb])] at hhoming hmode hprev
      exact h ⟨hhoming, hmode, hprev, hb⟩
    rw [tested, travelStop_pos, homingEnd_pos, hnot, switchFound_pos]
    exact .inl rfl

/-- Settles O35: before step 6 the timing is kept or restarted and `pos` kept or the snapshot; step 6 runs only on a kept
timing. -/
theorem atMostOneStepPerIteration : Obligations.AtMostOneStepPerIteration := by
  intro s t hinv hturn h
  obtain ⟨-, -, hheld⟩ | ⟨d, hdispatch, hsteered, hstep⟩ := turn_outcomes hinv.legal hturn
  · cases hheld.symm.trans h
    exact .inl ⟨rfl, .inl rfl, .inl rfl⟩
  have hd := dispatched_of_dispatchToken hdispatch
  have hlegal : d.cfg.Legal := hsteered.cfg ▸ hinv.legal
  have hu : Steered (popped s) (tested s.sw d) := hsteered.trans (steered_tested s.sw d)
  obtain ⟨-, hnext⟩ | ⟨hdue, hrange, hnext⟩ | ⟨-, -, hfault⟩ := afterDispatch_outcomes s.sw hlegal
  · cases (hstep.trans hnext).symm.trans h
    refine .inl ⟨hu.phase, ?_, hu.timing.imp (·.stepCount) (·.stepCount)⟩
    obtain hpos | ⟨hmode, hprev, hsw, hmode', hpos⟩ := tested_pos hlegal s.sw
    · exact .inl (hpos.trans hd.pos)
    · exact .inr ⟨eq_homingFound_of_dispatchedMode (hd.mode.symm.trans hmode), hd.swPrev.symm.trans hprev, hsw, hmode',
        hpos.trans (by rw [hd.cfg]; rfl)⟩
  · cases (hstep.trans hnext).symm.trans h
    have hkept := hu.timingKept_of_due hinv.legal hdue
    obtain ⟨hmove, -, hcount⟩ := counted_moves (hu.cfg ▸ hinv.legal) hdue hrange
    exact .inr ⟨hkept.mode, ne_stopped_of_due (s := tested s.sw d) hdue, hkept.tickNow, hkept.stepCount ▸ hcount,
      hkept.pos ▸ hmove.pos, hu.phase ▸ hmove.phase⟩
  · cases (hstep.trans hfault).symm.trans h

/-! ### The way home -/

/-- In `HomingQuitting` short of home no cause applies (R183 to R186). -/
theorem noCause_of_short (hmode : s.mode = .homingQuitting) (hshort : s.pos.toInt < 0) : NoCause b s :=
  ⟨⟨by simp [hmode], by simp [hmode], fun ⟨_, _, hhome⟩ => by omega⟩, fun ⟨_, _, hover⟩ => by omega⟩

/-- `n` steps short of home, with the agenda that paces them, the index not ahead of the clock and room for the ticks. -/
structure PacedHome (n : Nat) (s : State) : Prop where
  inv : Inv s
  mode : s.mode = .homingQuitting
  fifo : s.fifo = []
  pos : s.pos.toInt = -(n : Int)
  agenda : s.agenda = paced s.cfg.fixedTicksPerStep n
  behind : s.stepCount.toNat * s.cfg.fixedTicksPerStep ≤ s.tickNow.toNat
  room : s.tickNow.toNat + n * s.cfg.fixedTicksPerStep < 4294967296

/-- With no token a turn in `HomingQuitting` is steps 2 to 6 (R180). -/
theorem step_of_quitting (h : Inv s) (hmode : s.mode = .homingQuitting) (hfifo : s.fifo = []) {rest : List AgentStep}
    (hagenda : s.agenda = .wake :: rest) : step s = afterDispatch s.sw { begun s with agenda := rest } := by
  have hbegun : begun s = { begun s with agenda := rest } := by simp [begun, hagenda, agendaAfterTurn]
  rw [stepWithoutATokenRunsTheTests s h.legal ⟨h.port_empty, .inr (.inl ⟨rest, hagenda⟩)⟩ hfifo (by simp [hmode]),
    ← hbegun]

/-- One round: the ticks make the next step due, and the turn takes it. -/
theorem PacedHome.round {n : Nat} (h : PacedHome (n + 1) s) :
    ∃ w u, step s = .next w ∧ step w = .next u ∧ PacedHome n u := by
  have hpos := h.pos
  have hroom := h.room
  have hbehind := h.behind
  rw [Nat.add_one_mul] at hroom
  push_cast at hpos
  obtain ⟨v, hv, hticks⟩ := (tickAdvanceCountsOrFaults s _ _ h.inv.legal h.inv.port_empty h.agenda).1 (by omega)
  have hw := everyStepKeepsTheInvariant s _ h.inv hticks
  have hturn := step_of_quitting hw h.mode h.fifo rfl
  have hreached : ticks s.cfg .fast (s.stepCount.toNat + 1) ≤ (v - s.tickOrigin).toNat := by
    rw [h.inv.origin_zero, sub_zero, hv, ticks, ticksFast, Nat.add_one_mul]
    omega
  have hforward := h.inv.directionValue_of_quitting h.mode
  have hmin := (pos_range s.pos).1
  obtain ⟨u, hu, -, -, hupos, hucount, hframe⟩ :=
    dueStepIsTaken { begun s with tickNow := v, agenda := paced s.cfg.fixedTicksPerStep n } s.sw .fast h.inv.legal
      (by simp [begun, h.mode, rateClass]) (noCause_of_short h.mode (by simp only [begun]; omega)) hreached
      (by simp only [begun]; omega) (by simp only [begun]; omega)
  have hstep := hturn.trans hu
  refine ⟨_, u, hticks, hstep, ?_⟩
  have hinv := everyStepKeepsTheInvariant _ u hw hstep
  rw [hframe] at hinv hupos hucount ⊢
  exact {
    inv := hinv
    mode := h.mode
    fifo := h.fifo
    pos := by
      rw [hupos]
      simp only [begun]
      omega
    agenda := rfl
    behind := by
      rw [hucount]
      simp only [begun, hv, Nat.add_one_mul]
      omega
    room := by
      simp only [begun, hv]
      omega }

/-- The last turn finds home (R185). -/
theorem PacedHome.arrive (h : PacedHome 0 s) : ∃ t, step s = .next t ∧ t.mode = .stopped ∧ t.pos = 0 ∧
    t.events = [.homingDone] ∧ t.outputs = [.tickRst, .led .solid, .tone .success] := by
  have hpos : s.pos = 0 := BitVec.eq_of_toInt_eq h.pos
  have hhoming : s.cfg.homing = true := h.inv.homing_of_isHomingMode (by simp [h.mode, isHomingMode])
  have hstep := (step_of_quitting h.inv h.mode h.fifo h.agenda).trans
    (homeReachedStopsWithSuccess { begun s with agenda := [] } s.sw hhoming h.mode (by simp [begun, hpos]))
  exact ⟨_, hstep, rfl, hpos, rfl, rfl⟩

/-- Settles O55: each of the `n` rounds is two steps, and the last turn one more. -/
theorem homingQuittingReachesHome : Obligations.HomingQuittingReachesHome := by
  intro n s hinv hmode hfifo hpos hagenda hbehind hroom
  have hpaced : PacedHome n s := ⟨hinv, hmode, hfifo, hpos, hagenda, hbehind, hroom⟩
  clear hinv hmode hfifo hpos hagenda hbehind hroom
  induction n generalizing s with
  | zero =>
    obtain ⟨t, hstep, hhome⟩ := hpaced.arrive
    exact ⟨t, by simp [runSteps, hstep], hhome⟩
  | succ n ih =>
    obtain ⟨w, u, hticks, hstep, hu⟩ := hpaced.round
    obtain ⟨t, hrun, hhome⟩ := ih u hu
    refine ⟨t, ?_, hhome⟩
    rw [Nat.mul_add_one, runSteps, hticks, andThen_next, runSteps, hstep, andThen_next, hrun]

end Sys2Proof.Machine
end

section
/-! Non-interference: the tick source while `Stopped` (spec/70_reset_and_hazards.md R271, U5). -/

namespace Sys2Proof.Machine

open Sys2Proof.Statement

variable {b : Bool} {s t : State} {v : Word}

theorem Restarted.tested (h : Restarted s) (b : Bool) : Restarted (tested b s) :=
  (steered_tested b s).timing.elim (h.of_timingKept · (steered_tested b s).outputs) id

/-- After a transition the iteration completes and takes no step. -/
theorem Restarted.afterDispatch (h : Restarted s) (hlegal : s.cfg.Legal) (b : Bool) :
    afterDispatch b s = .next (endIteration b (Machine.tested b s)) := by
  have hcfg := (steered_tested b s).cfg
  exact afterDispatch_of_tested rfl ((h.tested b).due_eq_false (hcfg ▸ hlegal))

theorem noCause_of_stopped (hmode : s.mode = .stopped) (hdir : s.direction = canon s.mode) : NoCause b s :=
  ⟨noHomingCause_of_isHomingMode_eq_false b (by simp [hmode, isHomingMode]), by simp [hdir, hmode, canon]⟩

theorem afterDispatch_stopped (hlegal : s.cfg.Legal) (hmode : s.mode = .stopped) (hdir : s.direction = canon s.mode) :
    afterDispatch b s = .next { s with swPrev := b } :=
  noStepBeforeItsTime s b hlegal (noCause_of_stopped hmode hdir) (.inl hmode)

/-- From `s`, `G` restarts the timing whatever the tick source holds, or keeps the timing and leaves the tick source alone. -/
def TickBlind (v : Word) (G : State → Result) (s : State) : Prop :=
  ∃ d, G s = .next d ∧
    (Restarted d ∧ G { s with tickNow := v } = .next d ∨
      TimingKept s d ∧ G { s with tickNow := v } = .next { d with tickNow := v })

theorem tickBlind_transition (m : Mode) : TickBlind v (fun s => .next (transition m s)) s := by
  by_cases h : m = s.mode
  · exact ⟨s, congrArg Host.Outcome.next (transition_self h),
      .inr ⟨.refl s, congrArg Host.Outcome.next (transition_self (s := { s with tickNow := v }) h)⟩⟩
  · exact ⟨transitioned m s, congrArg Host.Outcome.next (transition_of_ne h),
      .inl ⟨restarted_transitioned m s, congrArg Host.Outcome.next (transition_of_ne (s := { s with tickNow := v }) h)⟩⟩

theorem tickBlind_toggled : TickBlind v (fun s => .next (toggled s)) s :=
  ⟨_, rfl, .inr ⟨⟨rfl, rfl, rfl, rfl, rfl, rfl, rfl, rfl⟩, rfl⟩⟩

theorem tickBlind_invalidToken (c : Token) : TickBlind v (fun s => .next (invalidToken c s)) s :=
  ⟨_, rfl, .inr ⟨⟨rfl, rfl, rfl, rfl, rfl, rfl, rfl, rfl⟩, rfl⟩⟩

/-- Step 1 does not read the tick source (R210 to R216). -/
theorem tickBlind_dispatchToken (c : Option Token) : TickBlind v (dispatchToken c) s := by
  cases c with
  | none => exact ⟨s, rfl, .inr ⟨.refl s, rfl⟩⟩
  | some x =>
    unfold dispatchToken decodeCmd TickBlind
    dsimp only
    split_ifs with hs hp ht hf hd hr
    · exact tickBlind_transition _
    · exact tickBlind_transition _
    · exact tickBlind_transition _
    · exact tickBlind_transition _
    · exact tickBlind_toggled
    · rw [exec_cmdR_of_homing hr.2, exec_cmdR_of_homing (s := { s with tickNow := v }) hr.2]
      exact tickBlind_transition _
    · exact tickBlind_invalidToken _

/-- Settles O52: a held turn, a token that restarts the timing, and one that leaves the RCB `Stopped`. -/
theorem tickValueWhileStoppedDoesNotMatter : Obligations.TickValueWhileStoppedDoesNotMatter := by
  intro s v hinv hturn hmode
  have hturn' : RcbHasTurn { s with tickNow := v } := hturn
  by_cases henabled : s.fifo ≠ [] ∨ s.mode ≠ .stopped
  · obtain ⟨d, hd, hcases⟩ := tickBlind_dispatchToken (v := v) (s := popped s) s.fifo.head?
    have hcfg : d.cfg = s.cfg := (dispatched_of_dispatchToken hd).cfg
    have hlegal : d.cfg.Legal := hcfg ▸ hinv.legal
    have hstep := step_of_dispatchToken hinv.legal hturn henabled hd
    obtain ⟨hrestarted, hd'⟩ | ⟨hkept, hd'⟩ := hcases
    · have hstep' := step_of_dispatchToken (s := { s with tickNow := v }) hinv.legal hturn' henabled hd'
      have hafter := hrestarted.afterDispatch hlegal s.sw
      exact ⟨_, hstep.trans hafter, .inl ⟨(hrestarted.tested s.sw).tickNow, hstep'.trans hafter⟩⟩
    · have hstep' := step_of_dispatchToken (s := { s with tickNow := v }) hinv.legal hturn' henabled hd'
      have hdmode : d.mode = .stopped := hkept.mode.trans hmode
      have hdir : d.direction = canon d.mode := by
        rw [hkept.mode, hkept.direction]
        exact hinv.direction_canon
      exact ⟨_, hstep.trans (afterDispatch_stopped hlegal hdmode hdir), .inr ⟨hkept.tickNow, hdmode,
        hstep'.trans (afterDispatch_stopped (s := { d with tickNow := v }) hlegal hdmode hdir)⟩⟩
  · obtain ⟨hfifo, -⟩ : s.fifo = [] ∧ s.mode = .stopped := by simpa using henabled
    exact ⟨_, step_of_held hinv.legal hturn hfifo hmode, .inr ⟨rfl, hmode,
      step_of_held (s := { s with tickNow := v }) hinv.legal hturn' hfifo hmode⟩⟩

end Sys2Proof.Machine
end

section
/-! Non-interference: what the RCB issues is never read back, and without homing the switch is not read at all
(spec/20_memory.md R84, spec/70_reset_and_hazards.md R285, spec/10_state.md R36, U16). Both are one fact about an erasure of
some fields: an operation that does not read them gives, from states that agree on the rest, states that agree on the rest. -/

namespace Sys2Proof.Machine

open Sys2Proof.Statement

/-! ### The two erasures -/

/-- What an erasure hides. -/
inductive Hidden where
  | feedback
  | switch

/-- The state without it. -/
def hide : Hidden → State → State
  | .feedback => withoutFeedback
  | .switch => withoutSwitch

/-- What is read of a state, whichever of the two is hidden. -/
structure SameReads (s s' : State) : Prop where
  cfg : s'.cfg = s.cfg
  mode : s'.mode = s.mode
  direction : s'.direction = s.direction
  pos : s'.pos = s.pos
  stepCount : s'.stepCount = s.stepCount
  tickOrigin : s'.tickOrigin = s.tickOrigin
  tickNow : s'.tickNow = s.tickNow
  fifo : s'.fifo = s.fifo
  seqPort : s'.seqPort = s.seqPort
  agenda : s'.agenda = s.agenda

variable {h : Hidden} {s s' : State}

theorem sameReads_of_hide_eq (e : hide h s = hide h s') : SameReads s s' := by
  cases h
  all_goals exact ⟨(congrArg State.cfg e).symm, (congrArg State.mode e).symm, (congrArg State.direction e).symm,
    (congrArg State.pos e).symm, (congrArg State.stepCount e).symm, (congrArg State.tickOrigin e).symm,
    (congrArg State.tickNow e).symm, (congrArg State.fifo e).symm, (congrArg State.seqPort e).symm,
    (congrArg State.agenda e).symm⟩

theorem swPrev_eq_of_hide_feedback_eq (e : hide .feedback s = hide .feedback s') : s'.swPrev = s.swPrev :=
  (congrArg State.swPrev e).symm

theorem sw_eq_of_hide_feedback_eq (e : hide .feedback s = hide .feedback s') : s'.sw = s.sw :=
  (congrArg State.sw e).symm

/-! ### Operations that do not read what is hidden -/

/-- From states that agree on the rest, `g` gives states that agree on the rest. -/
def BlindTo (h : Hidden) (g : State → State) : Prop :=
  ∀ s s', hide h s = hide h s' → hide h (g s) = hide h (g s')

/-- The same of an operation that can stop. -/
def BlindStep (h : Hidden) (G : State → Result) : Prop :=
  ∀ s s', hide h s = hide h s' → AgreeUpTo (hide h) (G s) (G s')

/-- An update is blind when it gives the same from the erased state. -/
theorem blindTo_of_erased {g : State → State} (hg : ∀ s, hide h (g s) = hide h (g (hide h s))) : BlindTo h g :=
  fun s s' e => by rw [hg s, hg s', e]

/-- Two branchings on the same condition are related when their branches are. -/
theorem ite_related {α : Type} {R : α → α → Prop} {p q : Prop} [Decidable p] [Decidable q] {a a' c c' : α}
    (hpq : p ↔ q) (ha : R a a') (hc : R c c') : R (if p then a else c) (if q then a' else c') := by
  by_cases hp : p
  · rwa [if_pos hp, if_pos (hpq.mp hp)]
  · rwa [if_neg hp, if_neg (hpq.not.mp hp)]

/-- Sequencing keeps agreement; the second part is asked only about a state that the first part answers. -/
theorem agree_andThen {f : State → State} {o o' : Result} {F F' : State → Result} (ho : AgreeUpTo f o o')
    (hF : ∀ u u', o = .next u → f u = f u' → AgreeUpTo f (F u) (F' u')) :
    AgreeUpTo f (andThen o F) (andThen o' F') := by
  cases o <;> cases o'
  case next.next u u' => exact hF u u' rfl ho
  case fault.fault => exact ho
  case refused.refused => exact ho
  all_goals exact ho.elim

/-! ### The shared operations -/

theorem blindTo_transition (m : Mode) : BlindTo h (transition m) := by
  have hentered : BlindTo h (transitioned m) := blindTo_of_erased fun _ => by cases h <;> rfl
  intro s s' e
  have hmode := (sameReads_of_hide_eq e).mode
  by_cases hm : m = s.mode
  · rw [transition_self hm, transition_self (hm.trans hmode.symm), e]
  · rw [transition_of_ne hm, transition_of_ne (hmode ▸ hm)]
    exact hentered s s' e

theorem blindTo_toggled : BlindTo h toggled := blindTo_of_erased fun _ => by cases h <;> rfl

theorem blindTo_invalidToken (c : Token) : BlindTo h (invalidToken c) := blindTo_of_erased fun _ => by cases h <;> rfl

theorem blindTo_forceStop (e : Event) (x : Tone) : BlindTo h (forceStop e x) := by
  have hnoted : BlindTo h (fun s => emit (.tone x) (raiseEvent e s)) := blindTo_of_erased fun _ => by cases h <;> rfl
  exact fun s s' same => hnoted _ _ (blindTo_transition .stopped s s' same)

theorem blindTo_ssqStop : BlindTo h ssqStop := blindTo_of_erased fun _ => by cases h <;> rfl

theorem blindStep_ssqStep (d : Int) : BlindStep h (ssqStep d) := by
  have hstepped : BlindTo h (steppedState d) := blindTo_of_erased fun _ => by cases h <;> rfl
  intro s s' e
  have hpos := (sameReads_of_hide_eq e).pos
  exact ite_related (R := AgreeUpTo (hide h)) (by rw [hpos]) rfl (hstepped s s' e)

theorem blindStep_countStep : BlindStep h countStep := by
  have hcounted : BlindTo h (fun s => { s with stepCount := s.stepCount + 1 }) :=
    blindTo_of_erased fun _ => by cases h <;> rfl
  intro s s' e
  have hcount := (sameReads_of_hide_eq e).stepCount
  exact ite_related (R := AgreeUpTo (hide h)) (by rw [hcount]) rfl (hcounted s s' e)

/-- No instruction reads a mailbox, a record or the switch (R84, R210 to R216, R121 to R124). -/
theorem blindStep_exec (i : Instr) : BlindStep h (exec i) := by
  intro s s' e
  cases i with
  | cmdS => exact blindTo_transition _ s s' e
  | cmdP => exact blindTo_transition _ s s' e
  | cmdT => exact blindTo_transition _ s s' e
  | cmdF => exact blindTo_transition _ s s' e
  | cmdR =>
    have hcfg := (sameReads_of_hide_eq e).cfg
    exact ite_related (R := AgreeUpTo (hide h)) (by rw [hcfg]) (blindTo_transition _ s s' e)
      (blindTo_invalidToken _ s s' e)
  | cmdD => exact blindTo_toggled s s' e
  | cmdUnrec c => exact blindTo_invalidToken c s s' e
  | stepFwd => exact blindStep_ssqStep _ s s' e
  | stepRev => exact blindStep_ssqStep _ s s' e
  | stepNull => exact blindStep_ssqStep _ s s' e
  | stop x => exact blindTo_ssqStop s s' e
  | seqReserved => exact rfl

/-! ### The iteration -/

theorem blindStep_dispatchToken (c : Option Token) : BlindStep h (dispatchToken c) := by
  intro s s' e
  cases c with
  | none => exact e
  | some x =>
    have hcfg := (sameReads_of_hide_eq e).cfg
    rw [dispatchToken, dispatchToken, hcfg]
    exact blindStep_exec _ s s' e

theorem due_eq_of_sameReads (hr : SameReads s s') : due s' = due s := by
  simp only [due, elapsed, tickRead, hr.cfg, hr.mode, hr.stepCount, hr.tickNow, hr.tickOrigin]

theorem blindStep_dueStep : BlindStep h dueStep := by
  intro s s' e
  have hr := sameReads_of_hide_eq e
  have htaken : AgreeUpTo (hide h) (andThen (exec (decodeSeq (seqStepWord s.direction)) s) countStep)
      (andThen (exec (decodeSeq (seqStepWord s'.direction)) s') countStep) := by
    rw [hr.direction]
    exact agree_andThen (blindStep_exec _ s s' e) fun u u' _ => blindStep_countStep u u'
  exact ite_related (R := AgreeUpTo (hide h)) (by rw [hr.mode, due_eq_of_sameReads hr]) htaken e

theorem blindTo_travelStop : BlindTo h travelStop := by
  intro s s' e
  have hr := sameReads_of_hide_eq e
  exact ite_related (R := fun u u' => hide h u = hide h u')
    (by simp only [movingForward_iff, overLimit_iff, hr.cfg, hr.direction, hr.pos]) (blindTo_forceStop _ _ s s' e) e

theorem blindTo_homingEnd : BlindTo h homingEnd := by
  intro s s' e
  have hr := sameReads_of_hide_eq e
  exact ite_related (R := fun u u' => hide h u = hide h u')
    (by simp only [homeReached_iff, hr.cfg, hr.mode, hr.pos]) (blindTo_forceStop _ _ s s' e) e

/-- Steps 2 and 3 read the switch, and no mailbox or record. -/
theorem blindTo_switchFound (b : Bool) : BlindTo .feedback (switchFound b) := by
  intro s s' e
  have hr := sameReads_of_hide_eq e
  have hprev := swPrev_eq_of_hide_feedback_eq e
  exact ite_related (R := fun u u' => hide .feedback u = hide .feedback u')
    (by simp only [swRise_iff, hr.cfg, hr.mode, hprev]) (blindTo_transition _ s s' e) e

theorem blindTo_switchReleased (b : Bool) : BlindTo .feedback (switchReleased b) := by
  have hsnapshot : BlindTo .feedback (fun s => { s with pos := negQuitOffset s.cfg }) := blindTo_of_erased fun _ => rfl
  intro s s' e
  have hr := sameReads_of_hide_eq e
  have hprev := swPrev_eq_of_hide_feedback_eq e
  exact ite_related (R := fun u u' => hide .feedback u = hide .feedback u')
    (by simp only [swFall_iff, hr.cfg, hr.mode, hprev]) (blindTo_transition _ _ _ (hsnapshot s s' e)) e

/-- The samples are the same where the switch is seen, and homing is off where it is hidden. -/
structure Unheard (h : Hidden) (b b' : Bool) (c : Config) : Prop where
  sample : h = .feedback → b = b'
  homing : h = .switch → c.homing = false

theorem noHomingCause_of_homing_eq_false (b : Bool) (hhoming : s.cfg.homing = false) : NoHomingCause b s := by
  simp [NoHomingCause, hhoming]

theorem hide_tested {b b' : Bool} (hu : Unheard h b b' s.cfg) (e : hide h s = hide h s') :
    hide h (tested b s) = hide h (tested b' s') := by
  cases h with
  | feedback =>
    obtain rfl := hu.sample rfl
    have hfound := blindTo_switchFound b s s' e
    exact blindTo_travelStop _ _ (blindTo_homingEnd _ _ (blindTo_switchReleased b _ _ hfound))
  | switch =>
    have hhoming := hu.homing rfl
    have hhoming' : s'.cfg.homing = false := (sameReads_of_hide_eq e).cfg ▸ hhoming
    rw [tested_of_noHomingCause (noHomingCause_of_homing_eq_false b hhoming),
      tested_of_noHomingCause (noHomingCause_of_homing_eq_false b' hhoming')]
    exact blindTo_travelStop s s' e

theorem hide_endIteration {b b' : Bool} {c : Config} (hu : Unheard h b b' c) (e : hide h s = hide h s') :
    hide h (endIteration b s) = hide h (endIteration b' s') := by
  cases h with
  | feedback =>
    obtain rfl := hu.sample rfl
    exact blindTo_of_erased (g := endIteration b) (fun _ => rfl) s s' e
  | switch => exact e

theorem agree_afterDispatch {b b' : Bool} (hu : Unheard h b b' s.cfg) (e : hide h s = hide h s') :
    AgreeUpTo (hide h) (afterDispatch b s) (afterDispatch b' s') :=
  agree_andThen (blindStep_dueStep _ _ (hide_tested hu e)) fun _ _ _ e' => hide_endIteration hu e'

/-! ### The turns -/

theorem unheard_sw (e : hide h s = hide h s') (hdeaf : h = .switch → s.cfg.homing = false) :
    Unheard h s.sw s'.sw s.cfg where
  sample hfeedback := by
    subst hfeedback
    exact (sw_eq_of_hide_feedback_eq e).symm
  homing := hdeaf

theorem agree_iteration (e : hide h s = hide h s') (hdeaf : h = .switch → s.cfg.homing = false) :
    AgreeUpTo (hide h) (iteration s) (iteration s') := by
  have hpopped (q : List Token) : BlindTo h (fun s => { clearRecords s with fifo := q }) :=
    blindTo_of_erased fun _ => by cases h <;> rfl
  rw [iteration_eq, iteration_eq, (sameReads_of_hide_eq e).fifo]
  refine agree_andThen (blindStep_dispatchToken _ _ _ (hpopped _ s s' e)) fun u u' hu e' => ?_
  have hcfg : u.cfg = s.cfg := (dispatched_of_dispatchToken hu).cfg
  exact agree_afterDispatch (hcfg ▸ unheard_sw e hdeaf) e'

theorem agree_rcbTurn (e : hide h s = hide h s') (hdeaf : h = .switch → s.cfg.homing = false) :
    AgreeUpTo (hide h) (rcbTurn s) (rcbTurn s') := by
  have hr := sameReads_of_hide_eq e
  exact ite_related (R := AgreeUpTo (hide h)) (by simp only [enabled_iff, hr.fifo, hr.mode]) (agree_iteration e hdeaf) e

theorem blindStep_tickAdvance (k : Nat) : BlindStep h (tickAdvance k) := by
  have hset (v : Word) : BlindTo h (fun s => { s with tickNow := v }) := blindTo_of_erased fun _ => by cases h <;> rfl
  intro s s' e
  have hnow := (sameReads_of_hide_eq e).tickNow
  rw [tickAdvance, tickAdvance, hnow]
  exact ite_related (R := AgreeUpTo (hide h)) Iff.rfl rfl (hset _ s s' e)

theorem blindTo_fifoAppend (c : Token) : BlindTo h (fifoAppend c) := blindTo_of_erased fun _ => by cases h <;> rfl

theorem blindTo_fifoPushNonBlocking (c : Token) : BlindTo h (fifoPushNonBlocking c) := by
  have hdropped : BlindTo h (raiseEvent .cmdDropped) := blindTo_of_erased fun _ => by cases h <;> rfl
  intro s s' e
  have hr := sameReads_of_hide_eq e
  exact ite_related (R := fun u u' => hide h u = hide h u') (by simp only [fifoFull_iff, hr.cfg, hr.fifo])
    (hdropped s s' e) (blindTo_fifoAppend c s s' e)

/-- With nothing at the port: the step of each agent (R256). -/
theorem agree_agentTurn (hport : s.seqPort = none) (e : hide h s = hide h s')
    (hdeaf : h = .switch → s.cfg.homing = false) : AgreeUpTo (hide h) (agentTurn s) (agentTurn s') := by
  have hmoved (l : List AgentStep) : BlindTo h (fun s => { s with agenda := l }) :=
    blindTo_of_erased fun _ => by cases h <;> rfl
  have hcleared (l : List AgentStep) : BlindTo h (fun s => clearRecords { s with agenda := l }) :=
    blindTo_of_erased fun _ => by cases h <;> rfl
  have hr := sameReads_of_hide_eq e
  rw [agentTurn_agenda hport, agentTurn_agenda (hr.seqPort.trans hport), hr.agenda]
  rcases s.agenda with _ | ⟨a, rest⟩
  · exact agree_rcbTurn e hdeaf
  cases a with
  | wake => exact agree_rcbTurn (hmoved rest s s' e) hdeaf
  | pushBlocking c =>
    exact ite_related (R := AgreeUpTo (hide h)) (by simp only [fifoFull_iff, hr.cfg, hr.fifo]) (agree_rcbTurn e hdeaf)
      (blindTo_fifoAppend c _ _ (hcleared rest s s' e))
  | pushNonBlocking c => exact blindTo_fifoPushNonBlocking c _ _ (hcleared rest s s' e)
  | tickAdvance k => exact blindStep_tickAdvance k _ _ (hcleared rest s s' e)
  | setSwitch level =>
    have hset : BlindTo h (fun s => clearRecords { s with sw := level, agenda := rest }) :=
      blindTo_of_erased fun _ => by cases h <;> rfl
    exact hset s s' e
  | boot =>
    have hboot : BlindTo h (fun s => bootState { s with agenda := rest }) :=
      blindTo_of_erased fun _ => by cases h <;> rfl
    exact hboot s s' e

theorem agree_step (e : hide h s = hide h s') (hdeaf : h = .switch → s.cfg.homing = false) :
    AgreeUpTo (hide h) (step s) (step s') := by
  have hr := sameReads_of_hide_eq e
  refine ite_related (R := AgreeUpTo (hide h)) (by rw [hr.cfg]) ?_ rfl
  rcases hport : s.seqPort with _ | w
  · exact agree_agentTurn hport e hdeaf
  · have hcleared : BlindTo h (fun s => clearRecords { s with seqPort := none }) :=
      blindTo_of_erased fun _ => by cases h <;> rfl
    rw [agentTurn_port hport, agentTurn_port (hr.seqPort.trans hport)]
    exact blindStep_exec _ _ _ (hcleared s s' e)

/-- Settles O53: a step agrees up to the feedback side, which hides nothing of the switch. -/
theorem feedbackIsNeverReadBack : Obligations.FeedbackIsNeverReadBack := fun _ _ e =>
  agree_step (h := .feedback) e Hidden.noConfusion

/-- Settles O54: a step agrees up to the switch where no homing test applies. -/
theorem switchIsIgnoredWithoutHoming : Obligations.SwitchIsIgnoredWithoutHoming := fun _ _ hhoming e =>
  agree_step (h := .switch) e fun _ => hhoming

end Sys2Proof.Machine
end
